-- ==== Sys2Proof/Word.lean ====
section
/-! DEFINITION. The word types the manual counts in, and the record of four like things (one per level or one per
station port). -/

namespace Sys2Proof

/-- A byte of a line, a cell or a payload. -/
abbrev Byte := BitVec 8
/-- A 16-bit field: stream numbers, sequence numbers, limits, generations, CRC values. -/
abbrev Half := BitVec 16
/-- A Time Base value in microseconds (R186). -/
abbrev Time := BitVec 32
/-- A counter of the Counter Bank (R185). -/
abbrev Count := BitVec 32
/-- An urgency level, L0 to L3. -/
abbrev Level := Fin 4
/-- A station port, S0 to S3. -/
abbrev Port := Fin 4

/-- Four like things, one per level or one per station port. -/
structure Four (α : Type) where
  at0 : α
  at1 : α
  at2 : α
  at3 : α
  deriving DecidableEq, Repr

namespace Four

variable {α β : Type}

/-- The thing of one level or port. -/
def get (q : Four α) (i : Fin 4) : α :=
  match i with
  | 0 => q.at0
  | 1 => q.at1
  | 2 => q.at2
  | 3 => q.at3

/-- The record with the thing of one level or port replaced. -/
def set (q : Four α) (i : Fin 4) (x : α) : Four α :=
  match i with
  | 0 => { q with at0 := x }
  | 1 => { q with at1 := x }
  | 2 => { q with at2 := x }
  | 3 => { q with at3 := x }

/-- The same thing four times. -/
def all (x : α) : Four α := ⟨x, x, x, x⟩

/-- The record made from a rule for each level or port. -/
def make (f : Fin 4 → α) : Four α := ⟨f 0, f 1, f 2, f 3⟩

/-- The four things in order. -/
def toList (q : Four α) : List α := [q.at0, q.at1, q.at2, q.at3]

end Four

/-- The four levels or ports in rising order. -/
def fourIndices : List (Fin 4) := [0, 1, 2, 3]

end Sys2Proof
end

