-- ==== Sys2Proof/Syntax.lean ====
section
/-! DEFINITION. The commands of the block: one constructor per row of the operation table, with the operands the row's
rule needs. -/

namespace Sys2Proof

/-- Two strap pins, 1 when tied high (R89, R91). -/
structure Straps where
  first : Bool
  second : Bool
  deriving DecidableEq, Repr

/-- What ends a reception on the trunk receive line (R8). -/
inductive ReceptionEnd where
  /-- The end delimiter: the check of R9 is made on the bytes received. -/
  | endDelimiter
  /-- A start delimiter: the segment is malformed and a new one begins. -/
  | startDelimiter
  /-- Idle fill: the segment is malformed. -/
  | idleFill
  deriving DecidableEq, Repr

/-- The events the part takes, each whole and indivisible. -/
inductive Instr where
  /-- RESET_PIN_ASSERT (R186): the reset pin is held and the straps are sampled. -/
  | resetPinAssert (trunk station : Straps)
  /-- COLD_START (R179): the reset pin is released. -/
  | coldStart
  /-- LINE_SIGNAL_LOSS (R71). -/
  | lineSignalLoss
  /-- LINE_SIGNAL_RETURN (R71). -/
  | lineSignalReturn
  /-- SEGMENT_RECEPTION_END (R9). -/
  | segmentReceptionEnd (how : ReceptionEnd)
  /-- FRAME_VALID_RISE (R94). -/
  | frameValidRise (port : Port)
  /-- STATION_BYTE_RECEIVED (R95). -/
  | stationByteReceived (port : Port) (byte : Byte)
  /-- FRAME_VALID_FALL (R97). -/
  | frameValidFall (port : Port)
  /-- TRANSMISSION_COMPLETION (R11). -/
  | transmissionCompletion
  /-- HOLD_OFF_EXPIRY (R71). -/
  | holdOffExpiry
  /-- HELLO_DEADLINE_EXPIRY (R73). -/
  | helloDeadlineExpiry
  /-- SILENCE_DEADLINE_EXPIRY (R77). -/
  | silenceDeadlineExpiry
  /-- KEEPALIVE_DEADLINE_EXPIRY (R86). -/
  | keepaliveDeadlineExpiry
  /-- ADVANCE_DEADLINE_EXPIRY (R85), of one level. -/
  | advanceDeadlineExpiry (level : Level)
  /-- SUSPENSION_DEADLINE_EXPIRY (R32), of the frame open at one level. -/
  | suspensionDeadlineExpiry (level : Level)
  /-- AGE_DEADLINE_EXPIRY (R57), of the frame open at one level. -/
  | ageDeadlineExpiry (level : Level)
  /-- PEER_DEADLINE_EXPIRY (R173), of the entry with one local tag. -/
  | peerDeadlineExpiry (localTag : Byte)
  /-- COPY_BACK_COMPLETION (R148). -/
  | copyBackCompletion
  /-- EGRESS_FRAME_START (R127). -/
  | egressFrameStart (port : Port)
  /-- EGRESS_COMPLETION (R129). -/
  | egressCompletion (port : Port)
  /-- STATUS (R161): the Agent executes the STATUS request at the head of its queue. -/
  | status
  /-- READ_ENTRIES (R162), likewise. -/
  | readEntries
  /-- WRITE_ENTRY (R141), likewise. -/
  | writeEntry
  /-- CLEAR_SHADOW (R144), likewise. -/
  | clearShadow
  /-- COMMIT (R145), likewise. -/
  | commit
  /-- READ_COUNTERS (R164), likewise. -/
  | readCounters
  /-- READ_EVENTS (R165), likewise. -/
  | readEvents
  /-- ACK_EVENTS (R181), likewise. -/
  | ackEvents
  /-- FLUSH_LEVEL (R35), likewise. -/
  | flushLevel
  /-- LINK_CONTROL_DROP (R72), likewise. -/
  | linkControlDrop
  /-- LINK_CONTROL_HOLD (R72), likewise. -/
  | linkControlHold
  /-- LINK_CONTROL_RELEASE (R72), likewise. -/
  | linkControlRelease
  /-- TRAFFIC_RESTART (R176), likewise. -/
  | trafficRestart
  /-- FULL_RESTART (R176), likewise. -/
  | fullRestart
  /-- REQUEST_PEER_FORWARDING (R171): the Agent executes the request-peer at the head of its queue. -/
  | requestPeerForwarding
  /-- START_DELIMITER_ARRIVAL (R8). -/
  | startDelimiterArrival
  /-- DATA_BYTE_ARRIVAL (R8). -/
  | dataByteArrival (byte : Byte)
  /-- SUPPLY_BELOW_OPERATING_LEVEL (R187). -/
  | supplyBelowOperatingLevel
  deriving DecidableEq, Repr

end Sys2Proof
end

