-- ==== Sys2Proof/Decode.lean ====
section
/-! DEFINITION. The command a word spells by the table's bits. No row of the operation table gives bits, so no word
spells a command. -/

namespace Sys2Proof

/-- No row of opcode_table.json has fixed bits or fields. -/
def decodeTableWord (_nbits _w : Nat) : Option Instr := none

end Sys2Proof
end

