-- ==== Sys2Proof/Config.lean ====
section
/-! DEFINITION. What the part fixes once: intervals, capacities and identity, and the free values, which the manual
leaves open and of which nothing can be proved. -/

namespace Sys2Proof.Config

/-- Hold-off, 10 ms in microseconds (R71). -/
def holdOffTime : Nat := 10000
/-- Interval between HELLOs, 1 ms (R73). -/
def helloInterval : Nat := 1000
/-- Silence that takes the link down, 2 ms (R77). -/
def silenceTime : Nat := 2000
/-- Idle time after which a CONTROL is due, 250 microseconds (R86). -/
def keepaliveTime : Nat := 250
/-- Age at which an advance must go out, 200 microseconds (R85). -/
def advanceAge : Nat := 200
/-- Longest copy-back, 500 microseconds (R148). -/
def copyBackTime : Nat := 500
/-- Bytes of a cell (R110). -/
def cellBytes : Nat := 64
/-- Longest segment, 75 bytes (R8). -/
def longestSegment : Nat := 75
/-- Bytes of a station frame that are kept at most (R95). -/
def longestStationFrame : Nat := 1542
/-- Error budget at which the link goes down (R78). -/
def errorLimit : Nat := 16
/-- Good segments that take one off the error budget (R78). -/
def goodRunLength : Nat := 16
/-- Advance that makes a CONTROL due at once (R85). -/
def advanceStep : Nat := 8
/-- Free cells and free descriptors at which an exhaustion-reported flag clears (R107, R119). -/
def clearCells : Nat := 64
def clearDescs : Nat := 8
/-- Places of the Management Request Queue and of the Pending Peer Table (R157, R170). -/
def requestPlaces : Nat := 4
def peerPlaces : Nat := 4
/-- Longest management payload (R156). -/
def longestPayload : Nat := 256
/-- Ordinary places of the Event Queue (R180). -/
def eventPlaces : Nat := 31
/-- Cells that all rx allotments together may name (R145). -/
def allotmentTotal : Nat := 1008
/-- Entries of the Stream Table and of the Delivery Table (R136, R137). -/
def tableEntries : Nat := 512
/-- Identity in the STATUS block (R161). -/
def vendorCode : Half := 0x4B5A#16
def partCode : Half := 0x0440#16
def revision : Byte := 2#8
/-- CRC generator x^16 + x^12 + x^5 + 1 and initial value (R189). -/
def crcPoly : Half := 0x1021#16
def crcInit : Half := 0xFFFF#16
/-- The management stream (R100). -/
def mgmtStream : Half := 65535#16

/-- FREE. Which of the internal events due in one microsecond is taken next (R81, R175 and their like give the outcome
for either order and no order). Log 3. -/
opaque pickEvent : Nat → Nat
/-- FREE. Whether the selection an entry to UP calls for is taken before the segment that brought the link up (R76:
"may be taken before or after it"). Log 17. -/
opaque selectBeforeSegment : Nat → Bool
/-- FREE. Whether the data segment or CONTROL whose arrival takes the link to UP counts in the new good run (R75, R76 and
R78 do not say). Log 18. -/
opaque entrySegmentCounts : Nat → Bool
/-- FREE. Whether a failed Agent claim on the Transmit Pool that is short of both resources reports the descriptor
(R106 does not say). Log 19. -/
opaque bothShortReportsDesc : Nat → Bool

end Sys2Proof.Config
end

