-- ==== Sys2Proof/Machine/State.lean ====
section
/-! DEFINITION. The state of the part, block by block as the manual's Block overview names them, the reasons a step can
stop, and the state after reset. All of it is plain data. -/

namespace Sys2Proof.Machine

/-! ### Frames in the pools -/

/-- A cell in the chain of a descriptor: its number and the payload bytes written to it (R110). -/
structure PoolCell where
  number : Nat
  bytes : List Byte
  deriving DecidableEq, Repr

/-- Where a transmit frame came from (section 2.1). -/
inductive Origin where
  | station
  | forwardedRequest
  | trunkReply
  deriving DecidableEq, Repr

/-- A TX descriptor in use, with its chain of cells (section 2.1, R103, R111). -/
structure TxDescriptor where
  number : Nat
  level : Level
  atomic : Bool
  trunkStream : Half
  frameLength : Nat
  cells : List PoolCell
  origin : Origin
  admissionTime : Time
  ingressPort : Option Port
  deriving DecidableEq, Repr

/-- The Transmit Pool: its free lists, head first, and its exhaustion-reported flag (R106, R110). -/
structure TxPool where
  freeCells : List Nat
  freeDescs : List Nat
  exhaustionReported : Bool
  deriving DecidableEq, Repr

/-- The part of the Receive Pool a descriptor was claimed from, with the level of a LEVEL-class frame (R112). -/
inductive RxClass where
  | level (l : Level)
  | reserve
  deriving DecidableEq, Repr

/-- The block that holds a received frame (R112). -/
inductive RxHolder where
  | reassembler
  | delivery
  | agent
  | egress
  deriving DecidableEq, Repr

/-- An RX descriptor in use (R112). -/
structure RxDescriptor where
  cls : RxClass
  stream : Half
  length : Nat
  chain : List PoolCell
  holder : RxHolder
  refCount : Nat
  deriving DecidableEq, Repr

/-- The free lists of one part of the Receive Pool (R112). -/
structure RxPart where
  freeCells : List Nat
  freeDescs : List Nat
  deriving DecidableEq, Repr

/-- The Receive Pool: level part, management reserve, the descriptors in use by number, and the exhaustion-reported
flag (R112, R118). -/
structure RxPool where
  levelPart : RxPart
  reserve : RxPart
  descs : List (Nat × RxDescriptor)
  exhaustionReported : Bool
  deriving DecidableEq, Repr

/-! ### Station Port Receivers -/

/-- Why a frame in reception was dropped (R93). -/
inductive SprDrop where
  | noDescriptor
  | noBuffer
  deriving DecidableEq, Repr

/-- State of a Station Port Receiver; RECEIVING holds a TX descriptor, DROPPING its reason (R93). -/
inductive SprState where
  | idle
  | receiving (descriptor : Nat)
  | dropping (reason : SprDrop)
  | skipping
  deriving DecidableEq, Repr

/-- A Station Port Receiver with its frame in reception (R93). Stream number and declared length are read from the four
header bytes. -/
structure Spr where
  state : SprState
  byteCount : Nat
  overlength : Bool
  header : List Byte
  trailing : List Byte
  crc : Half
  cells : List PoolCell
  deriving DecidableEq, Repr

/-! ### Transmit Scheduler and Trunk Transmitter -/

/-- Kind of a data segment (R1). -/
inductive DataKind where
  | start
  | middle
  | end_
  | whole
  deriving DecidableEq, Repr

/-- An entry of the TX Open-Frame Stack; its level is its frame's (R16). -/
structure TxEntry where
  frame : TxDescriptor
  tag : Byte
  nextIndex : Nat
  atomic : Bool
  suspensionDeadline : Option Time
  protectedMark : Bool
  deriving DecidableEq, Repr

/-- The Transmit Scheduler: Level Queues with the oldest frame first, the TX Open-Frame Stack with the top first, and
the per-level counters for numbering (R4, R5, R13, R16). -/
structure Scheduler where
  queues : Four (List TxDescriptor)
  stack : List TxEntry
  nextTag : Four Byte
  nextSeq : Four Half
  deriving DecidableEq, Repr

/-- A data segment, numbered at its selection, with the descriptor of its frame (R22, log 24). -/
structure DataSegment where
  kind : DataKind
  level : Level
  tag : Byte
  seq : Half
  index : Nat
  frame : TxDescriptor
  deriving DecidableEq, Repr

/-- A segment in the Trunk Transmitter (R1, R2). -/
inductive Segment where
  | data (d : DataSegment)
  | control (limits : Four Half)
  | hello (heardYou : Bool) (limits : Four Half)
  deriving DecidableEq, Repr

/-- The Trunk Transmitter's slots (R11), the limits of this part's most recent HELLO that started (R76), and whether the
line is in the byte time of the end delimiter that closes a cut-off segment (R12). -/
structure TrunkTx where
  inFlight : Option Segment
  latch : Option Segment
  lastHello : Option (Four Half)
  cutOff : Bool
  deriving DecidableEq, Repr

/-! ### Trunk Receiver, Link Controller, Reassembler -/

/-- The segment in reception (R8). -/
structure Reception where
  bytes : List Byte
  overlength : Bool
  deriving DecidableEq, Repr

inductive LinkState where
  | down
  | hello
  | up
  deriving DecidableEq, Repr

/-- Causes of a DOWN event (R79). -/
inductive LinkCause where
  | silence
  | errorRate
  | peerRestart
  | admin
  | restart
  | signal
  deriving DecidableEq, Repr

/-- The Link Controller (R69). -/
structure LinkController where
  state : LinkState
  lastCause : LinkCause
  held : Bool
  signal : Bool
  holdOff : Option Time
  heard : Bool
  helloDeadline : Option Time
  generation : Half
  errorBudget : Nat
  goodRun : Nat
  silenceDeadline : Option Time
  keepaliveDeadline : Option Time
  txCredit : Four (Option Half)
  allotment : Four Nat
  lastAdvertised : Four (Option Half)
  advanceTime : Four (Option Time)
  advanceDeadline : Four (Option Time)
  controlDue : Bool
  deriving DecidableEq, Repr

/-- Reasons of an abort (R56). -/
inductive AbortReason where
  | lostSegment
  | noDescriptor
  | credit
  | overlong
  | age
  | lostEnd
  | tagMismatch
  | lengthMismatch
  | linkLoss
  deriving DecidableEq, Repr

/-- An entry of the RX Open-Frame Stack (R43). -/
structure RxEntry where
  level : Level
  tag : Byte
  stream : Half
  declaredLength : Nat
  bytesReceived : Nat
  segmentsReceived : Nat
  descriptor : Option Nat
  discarding : Option AbortReason
  ageDeadline : Option Time
  deriving DecidableEq, Repr

/-- The Reassembler: the RX Open-Frame Stack with the top first, and the next-expected numbers, which hold no value
while the link is not UP (R43, R44). -/
structure Reassembler where
  stack : List RxEntry
  expected : Option (Four Half)
  deriving DecidableEq, Repr

/-! ### Egress -/

/-- State of a Station Port Transmitter; idleGap is IDLE in the byte time that follows a completion or a cut-off (R127,
R129, R132). -/
inductive EgressState where
  | idle
  | idleGap
  | sending
  deriving DecidableEq, Repr

/-- An Egress Queue, RX descriptor numbers with the oldest first, and its Station Port Transmitter (R125, R127). -/
structure EgressPort where
  queue : List Nat
  state : EgressState
  deriving DecidableEq, Repr

/-! ### Configuration Store -/

inductive MatchPort where
  | port (p : Port)
  | any
  deriving DecidableEq, Repr

inductive Action where
  | forward
  | drop
  deriving DecidableEq, Repr

/-- A valid Stream Table entry (R136). -/
structure StreamEntry where
  matchPort : MatchPort
  stream : Half
  action : Action
  level : Level
  atomic : Bool
  trunkStream : Option Half
  deriving DecidableEq, Repr

/-- A valid Delivery Table entry (R137). -/
structure DeliveryEntry where
  stream : Half
  portMask : Four Bool
  egressStream : Option Half
  deriving DecidableEq, Repr

/-- A Level Table entry (R138). -/
structure LevelEntry where
  txQueueLimit : Nat
  preemptible : Bool
  maxSuspension : Nat
  rxAllotment : Nat
  retain : Bool
  rxAgeLimit : Nat
  deriving DecidableEq, Repr

/-- A Port Settings record (R139). -/
structure PortSettings where
  enabled : Bool
  defaultAction : Action
  defaultLevel : Level
  mgmtPermitted : Bool
  egressLimit : Nat
  deriving DecidableEq, Repr

/-- Severities, INFO below WARNING below ERROR (R178). -/
inductive Severity where
  | info
  | warning
  | error
  deriving DecidableEq, Repr

/-- The Part Settings record (R140). -/
structure PartSettings where
  noticeEnabled : Bool
  noticePort : Port
  noticeStream : Half
  noticeThreshold : Severity
  remoteMgmt : Bool
  mgmtLevel : Level
  peerTimeout : Nat
  unknownMask : Four Bool
  deriving DecidableEq, Repr

/-- A bank: the five records. The Stream and Delivery Tables list their valid entries by index; an index not listed is
an invalid entry, whose fields hold the cleared values (R136, R137, R142). -/
structure Bank where
  streams : List (Nat × StreamEntry)
  deliveries : List (Nat × DeliveryEntry)
  levels : Four LevelEntry
  ports : Four PortSettings
  part : PartSettings
  deriving DecidableEq, Repr

/-- The Configuration Store; copy-back is IDLE (none) or RUNNING since a time (R135). -/
structure ConfigStore where
  active : Bank
  shadow : Bank
  generation : Half
  copyBack : Option Time
  deriving DecidableEq, Repr

/-! ### Management Agent -/

/-- Source of a queued request; one from the trunk keeps the link generation at its arrival (R155). -/
inductive Source where
  | station (p : Port)
  | trunk (arrivalGeneration : Half)
  deriving DecidableEq, Repr

structure Request where
  source : Source
  payload : List Byte
  deriving DecidableEq, Repr

inductive LinkAction where
  | drop
  | hold
  | release
  deriving DecidableEq, Repr

inductive RestartKind where
  | traffic
  | full
  deriving DecidableEq, Repr

inductive DeferredCommand where
  | linkControl (action : LinkAction)
  | restart (kind : RestartKind)
  deriving DecidableEq, Repr

/-- The reply whose departure releases the deferred command (R155). -/
inductive AwaitedReply where
  | station (p : Port) (descriptor : Nat)
  | trunk (descriptor : Nat)
  deriving DecidableEq, Repr

/-- READY, or DEFERRING with the command and the awaited reply (R155). -/
inductive AgentMode where
  | ready
  | deferring (command : DeferredCommand) (awaited : AwaitedReply)
  deriving DecidableEq, Repr

/-- An entry of the Pending Peer Table (R170). -/
structure PeerEntry where
  localTag : Byte
  port : Port
  originalTag : Half
  replyStream : Half
  command : Byte
  deadline : Time
  deriving DecidableEq, Repr

/-- The Management Agent; the request queue and the Pending Peer Table are oldest first (R155). -/
structure Agent where
  mode : AgentMode
  requests : List Request
  peers : List PeerEntry
  nextLocalTag : Byte
  noticeLatch : Bool
  deriving DecidableEq, Repr

/-! ### Events, counters, time -/

/-- The kinds of event record (R178). -/
inductive EventKind where
  | restart
  | linkUp
  | linkDown
  | txProtect
  | txLinklossDiscard
  | rxAbort
  | creditViolation
  | poolExhausted
  | commitDone
  | mgmtDropped
  | peerTimeout
  | lateReply
  | eventsLost
  deriving DecidableEq, Repr

inductive Subject where
  | none
  | port (p : Port)
  | level (l : Level)
  deriving DecidableEq, Repr

/-- An event record; its severity is fixed by its kind (R178). -/
structure EventRecord where
  sequence : Half
  time : Time
  kind : EventKind
  subject : Subject
  stream : Option Half
  detail : Half
  deriving DecidableEq, Repr

/-- The Event Queue, oldest record first, and the event sequence counter (R178, R180). -/
structure EventQueue where
  records : List EventRecord
  nextSeq : Half
  deriving DecidableEq, Repr

/-- The Counter Bank: each group's counters by position (R185); hit counters that are not 0, by index (R102). -/
structure CounterBank where
  port : Four (Vector Count 12)
  level : Four (Vector Count 22)
  trunk : Vector Count 11
  mgmt : Vector Count 8
  hits : List (Nat × Count)
  deriving DecidableEq, Repr

/-- Causes of a restart (R179). -/
inductive RestartCause where
  | powerUp
  | resetPin
  | fullRestart
  | trafficRestart
  deriving DecidableEq, Repr

/-- The Time Base and the restart-cause record (R186, R187). -/
structure TimeBlock where
  timeBase : Time
  lastCause : RestartCause
  lastTrafficTime : Time
  trafficRestarts : Count
  deriving DecidableEq, Repr

/-- Input pins with a level, the straps as sampled, and whether the supply has been below its operating level since the
reset pin was last released (R89, R91, R92, R186, R187). The trunk line's signal is in the Link Controller (R69). -/
structure Pins where
  resetHeld : Bool
  trunkStraps : Straps
  stationStraps : Straps
  frameValid : Four Bool
  supplyLow : Bool
  deriving DecidableEq, Repr

/-- The whole part. `freeCount` is the model's own: it numbers the uses of free values. `pending` is the queue of
commands, first in, first out. -/
structure State where
  pins : Pins
  sprs : Four Spr
  txPool : TxPool
  sched : Scheduler
  trunkTx : TrunkTx
  reception : Option Reception
  link : LinkController
  reasm : Reassembler
  rxPool : RxPool
  egress : Four EgressPort
  config : ConfigStore
  agent : Agent
  events : EventQueue
  counters : CounterBank
  time : TimeBlock
  freeCount : Nat
  pending : List Instr
  deriving DecidableEq, Repr

/-- Reasons to stop with a fault. There are none: the manual describes no event at which the part stops, so no claim
about this model can rest on a fault. -/
inductive Fault where
  deriving DecidableEq, Repr

/-- Reasons to refuse a command. -/
inductive Refusal where
  /-- Raised by the dispatcher alone, for a command that has no meaning yet; safe. No command is refused at present. -/
  | notModelled (mnemonic : String)
  deriving DecidableEq, Repr

/-! ### Cold-start values of the blocks -/

/-- The receiver record outside a reception; the manual gives the values at the rise (R94, log 31). -/
def Spr.cleared (st : SprState) : Spr :=
  { state := st, byteCount := 0, overlength := false, header := [], trailing := [], crc := Config.crcInit, cells := [] }

/-- A receiver after any restart: SKIPPING when its frame-valid is high (R99). -/
def Spr.afterRestart (frameValidHigh : Bool) : Spr :=
  Spr.cleared (if frameValidHigh then .skipping else .idle)

/-- 1024 free cells and 128 free descriptors (R120). -/
def TxPool.cold : TxPool :=
  { freeCells := List.range 1024, freeDescs := List.range 128, exhaustionReported := false }

/-- 1008 cells and 124 descriptors in the level part, 16 and 4 in the reserve (R112, R120). -/
def RxPool.cold : RxPool :=
  { levelPart := { freeCells := List.range 1008, freeDescs := List.range 124 }
    reserve := { freeCells := List.range' 1008 16, freeDescs := List.range' 124 4 }
    descs := [], exhaustionReported := false }

/-- R42. -/
def Scheduler.cold : Scheduler :=
  { queues := Four.all [], stack := [], nextTag := Four.all 0#8, nextSeq := Four.all 0#16 }

/-- Idle fill from the release of the reset pin (R12). -/
def TrunkTx.cold : TrunkTx := { inFlight := none, latch := none, lastHello := none, cutOff := false }

/-- R90, with the hold-off not running. -/
def LinkController.cold (signal : Bool) : LinkController :=
  { state := .down, lastCause := .restart, held := false, signal := signal, holdOff := none, heard := false
    helloDeadline := none, generation := 0#16, errorBudget := 0, goodRun := 0, silenceDeadline := none
    keepaliveDeadline := none, txCredit := Four.all none, allotment := Four.all 0, lastAdvertised := Four.all none
    advanceTime := Four.all none, advanceDeadline := Four.all none, controlDue := false }

/-- R64. -/
def Reassembler.cold : Reassembler := { stack := [], expected := none }

/-- Defaults of one level: all but L3 are preemptible (R138). -/
def LevelEntry.default (l : Level) : LevelEntry :=
  { txQueueLimit := 256, preemptible := decide (l ≠ 3), maxSuspension := 0, rxAllotment := 252, retain := true
    rxAgeLimit := 100 }

/-- R139. -/
def PortSettings.default : PortSettings :=
  { enabled := true, defaultAction := .forward, defaultLevel := 0, mgmtPermitted := true, egressLimit := 256 }

/-- R140. -/
def PartSettings.default : PartSettings :=
  { noticeEnabled := false, noticePort := 0, noticeStream := 0#16, noticeThreshold := .error, remoteMgmt := true
    mgmtLevel := 3, peerTimeout := 50, unknownMask := Four.all true }

/-- A bank reset to defaults (R154). -/
def Bank.default : Bank :=
  { streams := [], deliveries := [], levels := Four.make LevelEntry.default, ports := Four.all PortSettings.default
    part := PartSettings.default }

/-- R154. -/
def ConfigStore.cold : ConfigStore :=
  { active := Bank.default, shadow := Bank.default, generation := 0#16, copyBack := none }

/-- R177. -/
def Agent.cold : Agent :=
  { mode := .ready, requests := [], peers := [], nextLocalTag := 0#8, noticeLatch := false }

/-- R185. -/
def CounterBank.cold : CounterBank :=
  { port := Four.all (Vector.replicate 12 0#32), level := Four.all (Vector.replicate 22 0#32)
    trunk := Vector.replicate 11 0#32, mgmt := Vector.replicate 8 0#32, hits := [] }

/-- The part with every block in its cold-start state, before the RESTART record is offered. The pins, the line signal
and the model's own fields are as given. -/
def State.cold (pins : Pins) (signal : Bool) (cause : RestartCause) (freeCount : Nat) (pending : List Instr) : State :=
  { pins := pins
    sprs := Four.make fun p => Spr.afterRestart (pins.frameValid.get p)
    txPool := TxPool.cold
    sched := Scheduler.cold
    trunkTx := TrunkTx.cold
    reception := none
    link := LinkController.cold signal
    reasm := Reassembler.cold
    rxPool := RxPool.cold
    egress := Four.all { queue := [], state := .idle }
    config := ConfigStore.cold
    agent := Agent.cold
    events := { records := [], nextSeq := 0#16 }
    counters := CounterBank.cold
    time := { timeBase := 0#32, lastCause := cause, lastTrafficTime := 0#32, trafficRestarts := 0#32 }
    freeCount := freeCount
    pending := pending }

/-- The pins at reset: released, straps low, frame-valid low (log 6). -/
def Pins.reset : Pins :=
  { resetHeld := false, trunkStraps := ⟨false, false⟩, stationStraps := ⟨false, false⟩, frameValid := Four.all false
    supplyLow := false }

/-- The machine right after reset: the cold start of a power-up with signal on the trunk line (log 6), so the link is
DOWN with the hold-off of 10 ms running (00_scope, Start-up in brief; R71, R90). The Event Queue holds the RESTART record
alone, sequence 0 and time 0 (R179, R188). -/
def State.reset : State :=
  { State.cold Pins.reset true .powerUp 0 [] with
    link := { LinkController.cold true with holdOff := some 10000#32 }
    events :=
      { records := [{ sequence := 0#16, time := 0#32, kind := .restart, subject := .none, stream := none, detail := 1#16 }]
        nextSeq := 1#16 } }

end Sys2Proof.Machine
end

