-- ==== Sys2Proof/Machine/Ops.lean ====
section
/-! DEFINITION. The named operations that the blocks share: updates of one block, sparse tables, time and sequence
comparison, bytes and CRC, pool claims and returns, counters, the Egress Queues, and offering an event record. -/

namespace Sys2Proof.Machine

/-! ### Updates of one block -/

def State.mapPins (s : State) (f : Pins → Pins) : State := { s with pins := f s.pins }
def State.mapSprs (s : State) (f : Four Spr → Four Spr) : State := { s with sprs := f s.sprs }
def State.mapTxPool (s : State) (f : TxPool → TxPool) : State := { s with txPool := f s.txPool }
def State.mapSched (s : State) (f : Scheduler → Scheduler) : State := { s with sched := f s.sched }
def State.mapTrunkTx (s : State) (f : TrunkTx → TrunkTx) : State := { s with trunkTx := f s.trunkTx }
def State.mapReception (s : State) (f : Option Reception → Option Reception) : State := { s with reception := f s.reception }
def State.mapLink (s : State) (f : LinkController → LinkController) : State := { s with link := f s.link }
def State.mapReasm (s : State) (f : Reassembler → Reassembler) : State := { s with reasm := f s.reasm }
def State.mapRxPool (s : State) (f : RxPool → RxPool) : State := { s with rxPool := f s.rxPool }
def State.mapEgress (s : State) (f : Four EgressPort → Four EgressPort) : State := { s with egress := f s.egress }
def State.mapConfig (s : State) (f : ConfigStore → ConfigStore) : State := { s with config := f s.config }
def State.mapAgent (s : State) (f : Agent → Agent) : State := { s with agent := f s.agent }
def State.mapEvents (s : State) (f : EventQueue → EventQueue) : State := { s with events := f s.events }
def State.mapCounters (s : State) (f : CounterBank → CounterBank) : State := { s with counters := f s.counters }
def State.mapTime (s : State) (f : TimeBlock → TimeBlock) : State := { s with time := f s.time }
def State.mapFreeCount (s : State) (f : Nat → Nat) : State := { s with freeCount := f s.freeCount }
/-- The state with the next free value's number taken. -/
def State.useFree (s : State) : State := s.mapFreeCount (· + 1)

/-! ### Sparse tables

A list of keys and values in one canonical form: keys strictly rising, and no value equal to what an unlisted key
reads as. -/

section Sparse
variable {α : Type}

def sparseGet (k : Nat) : List (Nat × α) → Option α
  | [] => none
  | (j, v) :: m => if j = k then some v else sparseGet k m

def sparseErase (k : Nat) : List (Nat × α) → List (Nat × α)
  | [] => []
  | (j, v) :: m => if j = k then sparseErase k m else (j, v) :: sparseErase k m

def sparseInsert (k : Nat) (v : α) : List (Nat × α) → List (Nat × α)
  | [] => [(k, v)]
  | (j, w) :: m => if k < j then (k, v) :: (j, w) :: m else if k = j then (k, v) :: m else (j, w) :: sparseInsert k v m

/-- Keys strictly rising. -/
def sparseRising : List (Nat × α) → Bool
  | [] => true
  | (k, _) :: m => m.all (fun e => decide (k < e.1)) && sparseRising m

end Sparse

/-! ### Sequence comparison and time -/

/-- a is ahead of b: (a - b) mod 65536 lies in 1 to 32767 (00_scope, Sequence comparison). -/
def seqAhead (a b : Half) : Bool := decide (1 ≤ (a - b).toNat) && decide ((a - b).toNat ≤ 32767)

/-- A Time Base value some microseconds later, modulo 2^32 (R186). -/
def timeAfter (t : Time) (microseconds : Nat) : Time := t + BitVec.ofNat 32 microseconds

/-- The Time Base has reached a deadline. No interval exceeds 1000 ms, so a deadline less than 2^31 behind has passed
(R186, log 4). -/
def timeReached (now deadline : Time) : Bool := decide ((now - deadline).toNat < 2 ^ 31)

/-- A deadline that is present and has passed. -/
def deadlineReached (now : Time) : Option Time → Bool
  | none => false
  | some d => timeReached now d

def State.now (s : State) : Time := s.time.timeBase

/-! ### Bytes and CRC -/

/-- Two bytes, most significant first. -/
def halfBytes (h : Half) : List Byte := [h.extractLsb' 8 8, h.extractLsb' 0 8]

/-- Four bytes, most significant first. -/
def wordBytes (w : BitVec 32) : List Byte :=
  [w.extractLsb' 24 8, w.extractLsb' 16 8, w.extractLsb' 8 8, w.extractLsb' 0 8]

/-- A 16-bit field from two bytes, most significant first. -/
def halfOf (hi lo : Byte) : Half := hi ++ lo

/-- The byte at a position of a payload, 0 where it ends sooner. -/
def byteAt (bs : List Byte) (i : Nat) : Byte := bs.getD i 0#8

/-- The 16-bit field at a position of a payload. -/
def halfAt (bs : List Byte) (i : Nat) : Half := halfOf (byteAt bs i) (byteAt bs (i + 1))

/-- A flag as the bit of a byte at a position. -/
def flagBit (b : Bool) (position : Nat) : Byte := if b then BitVec.ofNat 8 (2 ^ position) else 0#8

/-- The CRC register after some bit times, most significant bit first (R189). -/
def crcBits : Nat → Half → Half
  | 0, c => c
  | n + 1, c => crcBits n (if c.msb then (c <<< 1) ^^^ Config.crcPoly else c <<< 1)

/-- The CRC register after one byte (R189). -/
def crcByte (c : Half) (b : Byte) : Half := crcBits 8 (c ^^^ (b.setWidth 16 <<< 8))

/-- The CRC-16 of station frames and trunk segments (R6, R189). -/
def crc16 (bs : List Byte) : Half := bs.foldl crcByte Config.crcInit

/-- Bytes followed by their CRC, most significant byte first. -/
def withCrc (bs : List Byte) : List Byte := bs ++ halfBytes (crc16 bs)

/-! ### Cells -/

/-- Cells a payload of some bytes takes: ceil(N/64). -/
def cellsFor (bytes : Nat) : Nat := (bytes + 63) / 64

/-- The bytes of a chain, in payload order (R110). -/
def chainBytes (cells : List PoolCell) : List Byte := cells.flatMap (·.bytes)

/-- A payload cut into the claimed cells (R110). -/
def fillCells : List Nat → List Byte → List PoolCell
  | [], _ => []
  | n :: ns, bs => ⟨n, bs.take 64⟩ :: fillCells ns (bs.drop 64)

/-- A chain with the first bytes of its payload replaced. -/
def overwriteFirst (bytes : List Byte) : List PoolCell → List PoolCell
  | [] => []
  | c :: cs => { c with bytes := bytes ++ c.bytes.drop bytes.length } :: cs

/-! ### The Transmit Pool (R107, R110, R111) -/

/-- Clears the exhaustion-reported flag at a return that leaves enough free (R107). -/
def TxPool.noteReturn (p : TxPool) : TxPool :=
  { p with
    exhaustionReported :=
      p.exhaustionReported &&
        !(decide (Config.clearCells ≤ p.freeCells.length) && decide (Config.clearDescs ≤ p.freeDescs.length)) }

/-- A return places the cells at the tail of the free list in chain order, then the descriptor (R110). -/
def TxPool.giveBack (p : TxPool) (cells : List PoolCell) (desc : Nat) : TxPool :=
  TxPool.noteReturn
    { p with freeCells := p.freeCells ++ cells.map (·.number), freeDescs := p.freeDescs ++ [desc] }

def TxPool.giveBackFrame (p : TxPool) (d : TxDescriptor) : TxPool := p.giveBack d.cells d.number

def TxPool.claimDesc (p : TxPool) : Option (Nat × TxPool) :=
  match p.freeDescs with
  | [] => none
  | d :: ds => some (d, { p with freeDescs := ds })

def TxPool.claimCell (p : TxPool) : Option (Nat × TxPool) :=
  match p.freeCells with
  | [] => none
  | c :: cs => some (c, { p with freeCells := cs })

/-- The Agent's claim of a descriptor and some cells, all or nothing (R111). -/
def TxPool.claimFrame (p : TxPool) (cells : Nat) : Option (Nat × List Nat × TxPool) :=
  match p.freeDescs with
  | [] => none
  | d :: ds =>
    if cells ≤ p.freeCells.length then
      some (d, p.freeCells.take cells, { p with freeCells := p.freeCells.drop cells, freeDescs := ds })
    else none

/-! ### The Receive Pool (R112 to R119) -/

def RxPart.giveBack (p : RxPart) (cells : List PoolCell) : RxPart :=
  { p with freeCells := p.freeCells ++ cells.map (·.number) }

def RxPart.giveBackDesc (p : RxPart) (desc : Nat) : RxPart := { p with freeDescs := p.freeDescs ++ [desc] }

/-- Clears the exhaustion-reported flag at a return to the level part that leaves enough free (R119). -/
def RxPool.noteReturn (p : RxPool) : RxPool :=
  { p with
    exhaustionReported :=
      p.exhaustionReported &&
        !(decide (Config.clearCells ≤ p.levelPart.freeCells.length) &&
            decide (Config.clearDescs ≤ p.levelPart.freeDescs.length)) }

/-- Whether a descriptor is one of a level's frames. -/
def RxDescriptor.ofLevel (l : Level) (d : RxDescriptor) : Bool := decide (d.cls = .level l)

/-- Held cells of a level: the cells in the chains of LEVEL-class descriptors of that level (R114). -/
def RxPool.heldCells (p : RxPool) (l : Level) : Nat :=
  (p.descs.map fun e => if e.2.ofLevel l then e.2.chain.length else 0).sum

def RxPool.desc (p : RxPool) (n : Nat) : Option RxDescriptor := sparseGet n p.descs

def RxPool.putDesc (p : RxPool) (n : Nat) (d : RxDescriptor) : RxPool := { p with descs := sparseInsert n d p.descs }

/-- Change of one descriptor in use; a number that is not in use is left alone (log 22). -/
def RxPool.mapDesc (p : RxPool) (n : Nat) (f : RxDescriptor → RxDescriptor) : RxPool :=
  match p.desc n with
  | none => p
  | some d => p.putDesc n (f d)

/-- Returns the cells of a descriptor in use, which stays in use with no cells (R55). -/
def RxPool.dropCells (p : RxPool) (n : Nat) : RxPool :=
  match p.desc n with
  | none => p
  | some d =>
    match d.cls with
    | .level _ => RxPool.noteReturn { p.putDesc n { d with chain := [] } with levelPart := p.levelPart.giveBack d.chain }
    | .reserve => { p.putDesc n { d with chain := [] } with reserve := p.reserve.giveBack d.chain }

/-- Releases a frame: its cells, then its descriptor, return to their part (R56, R117). -/
def RxPool.release (p : RxPool) (n : Nat) : RxPool :=
  match p.desc n with
  | none => p
  | some d =>
    match d.cls with
    | .level _ =>
      RxPool.noteReturn
        { p with levelPart := (p.levelPart.giveBack d.chain).giveBackDesc n, descs := sparseErase n p.descs }
    | .reserve =>
      { p with reserve := (p.reserve.giveBack d.chain).giveBackDesc n, descs := sparseErase n p.descs }

/-- Claims a level descriptor for a frame, with no cells yet and holder REASSEMBLER (R48). -/
def RxPool.claimLevelDesc (p : RxPool) (l : Level) (stream : Half) (length : Nat) : Option (Nat × RxPool) :=
  match p.levelPart.freeDescs with
  | [] => none
  | n :: ns =>
    some (n, { p with levelPart := { p.levelPart with freeDescs := ns } }.putDesc n
      { cls := .level l, stream := stream, length := length, chain := [], holder := .reassembler, refCount := 0 })

/-- Takes a cell of the level part and adds it with its bytes at the end of the chain of one of a level's descriptors
(R49); a number that is not in use at that level takes none (log 22). -/
def RxPool.storeCell (p : RxPool) (l : Level) (n : Nat) (bytes : List Byte) : Option RxPool :=
  match p.levelPart.freeCells, (p.desc n).filter (·.ofLevel l) with
  | c :: cs, some d =>
    some ({ p with levelPart := { p.levelPart with freeCells := cs } }.putDesc n
      { d with chain := d.chain ++ [PoolCell.mk c bytes] })
  | [], _ => none
  | _ :: _, none => none

/-- The Agent's claim on the management reserve for a payload, all or nothing; the frame is bound for one Egress Queue
(R112, R116). -/
def RxPool.claimReserve (p : RxPool) (stream : Half) (payload : List Byte) : Option (Nat × RxPool) :=
  match p.reserve.freeDescs with
  | [] => none
  | n :: ns =>
    if cellsFor payload.length ≤ p.reserve.freeCells.length then
      some (n,
        { p with
          reserve := { freeCells := p.reserve.freeCells.drop (cellsFor payload.length), freeDescs := ns } }.putDesc n
          { cls := .reserve, stream := stream, length := payload.length
            chain := fillCells (p.reserve.freeCells.take (cellsFor payload.length)) payload
            holder := .egress, refCount := 1 })
    else none

/-! ### Counts computed from the frames (log 14) -/

/-- Cell count of a Level Queue (R13). -/
def State.levelQueueCells (s : State) (l : Level) : Nat := ((s.sched.queues.get l).map (·.cells.length)).sum

/-- Held-cell count of a level (R114). -/
def State.heldCells (s : State) (l : Level) : Nat := s.rxPool.heldCells l

/-- Cells of the frame with a descriptor number. -/
def State.frameCells (s : State) (n : Nat) : Nat :=
  match s.rxPool.desc n with
  | none => 0
  | some d => d.chain.length

/-- Cell count of a port's Egress Queue (R125). -/
def State.egressCells (s : State) (p : Port) : Nat := ((s.egress.get p).queue.map s.frameCells).sum

/-! ### Counters (R185) -/

/-- Counters of the port group in the order they are returned. -/
inductive PortCounter where
  | framesIn | framesOut | crc | length | runt | noDescriptor | noBuffer | disabled | queueFull | dropAction
  | mgmtRefused | egressDrops
  deriving DecidableEq, Repr

def PortCounter.position : PortCounter → Fin 12
  | .framesIn => 0
  | .framesOut => 1
  | .crc => 2
  | .length => 3
  | .runt => 4
  | .noDescriptor => 5
  | .noBuffer => 6
  | .disabled => 7
  | .queueFull => 8
  | .dropAction => 9
  | .mgmtRefused => 10
  | .egressDrops => 11

/-- Reason codes of an abort (R56). -/
def AbortReason.code : AbortReason → Nat
  | .lostSegment => 1
  | .noDescriptor => 2
  | .credit => 3
  | .overlong => 4
  | .age => 5
  | .lostEnd => 6
  | .tagMismatch => 7
  | .lengthMismatch => 8
  | .linkLoss => 9

/-- Counters of the level group in the order they are returned. -/
inductive LevelCounter where
  | framesAdmitted | framesSent | segmentsSent | preemptions | wholeInsertions | protections | flushed
  | linkLossRetained | linkLossDiscarded | framesDelivered | aborts (r : AbortReason) | orphans | stale
  | creditViolations
  deriving DecidableEq, Repr

def LevelCounter.position : LevelCounter → Fin 22
  | .framesAdmitted => 0
  | .framesSent => 1
  | .segmentsSent => 2
  | .preemptions => 3
  | .wholeInsertions => 4
  | .protections => 5
  | .flushed => 6
  | .linkLossRetained => 7
  | .linkLossDiscarded => 8
  | .framesDelivered => 9
  | .aborts .lostSegment => 10
  | .aborts .noDescriptor => 11
  | .aborts .credit => 12
  | .aborts .overlong => 13
  | .aborts .age => 14
  | .aborts .lostEnd => 15
  | .aborts .tagMismatch => 16
  | .aborts .lengthMismatch => 17
  | .aborts .linkLoss => 18
  | .orphans => 19
  | .stale => 20
  | .creditViolations => 21

/-- Codes of the causes of a DOWN event (R79). -/
def LinkCause.code : LinkCause → Nat
  | .silence => 1
  | .errorRate => 2
  | .peerRestart => 3
  | .admin => 4
  | .restart => 5
  | .signal => 6

/-- Counters of the trunk group in the order they are returned. -/
inductive TrunkCounter where
  | segmentsSent | segmentsReceived | crcMalformed | linkDowns (c : LinkCause) | controlSent | controlReceived
  deriving DecidableEq, Repr

def TrunkCounter.position : TrunkCounter → Fin 11
  | .segmentsSent => 0
  | .segmentsReceived => 1
  | .crcMalformed => 2
  | .linkDowns .silence => 3
  | .linkDowns .errorRate => 4
  | .linkDowns .peerRestart => 5
  | .linkDowns .admin => 6
  | .linkDowns .restart => 7
  | .linkDowns .signal => 8
  | .controlSent => 9
  | .controlReceived => 10

/-- Counters of the management group in the order they are returned. -/
inductive MgmtCounter where
  | requests | replies | repliesDropped | droppedRequests | peerTimeouts | lateReplies | noticesSent | noticesDropped
  deriving DecidableEq, Repr

def MgmtCounter.position : MgmtCounter → Fin 8
  | .requests => 0
  | .replies => 1
  | .repliesDropped => 2
  | .droppedRequests => 3
  | .peerTimeouts => 4
  | .lateReplies => 5
  | .noticesSent => 6
  | .noticesDropped => 7

/-- A counter raised by some number, wrapping (R185). -/
def raise {n : Nat} (v : Vector Count n) (i : Fin n) (by_ : Nat) : Vector Count n :=
  v.set i.val (v[i.val] + BitVec.ofNat 32 by_) i.isLt

def State.countPort (s : State) (p : Port) (c : PortCounter) : State :=
  s.mapCounters fun b => { b with port := b.port.set p (raise (b.port.get p) c.position 1) }

def State.countLevelBy (s : State) (l : Level) (c : LevelCounter) (n : Nat) : State :=
  s.mapCounters fun b => { b with level := b.level.set l (raise (b.level.get l) c.position n) }

def State.countLevel (s : State) (l : Level) (c : LevelCounter) : State := s.countLevelBy l c 1

def State.countTrunk (s : State) (c : TrunkCounter) : State :=
  s.mapCounters fun b => { b with trunk := raise b.trunk c.position 1 }

def State.countMgmt (s : State) (c : MgmtCounter) : State :=
  s.mapCounters fun b => { b with mgmt := raise b.mgmt c.position 1 }

/-- The hit counter of a Stream Table index (R102); one that is not listed is 0. -/
def CounterBank.hit (b : CounterBank) (i : Nat) : Count := (sparseGet i b.hits).getD 0#32

/-- A hit counter set to a value, in canonical form. -/
def CounterBank.setHit (b : CounterBank) (i : Nat) (c : Count) : CounterBank :=
  { b with hits := if c = 0#32 then sparseErase i b.hits else sparseInsert i c b.hits }

def State.countHit (s : State) (i : Nat) : State := s.mapCounters fun b => b.setHit i (b.hit i + 1#32)

/-! ### Egress Queues (R125 to R127) -/

/-- Appends a frame to a port's Egress Queue. An IDLE transmitter starts its head at the event that makes the queue
non-empty; one in the byte time after a completion waits (R127, log 12). -/
def EgressPort.append (e : EgressPort) (n : Nat) : EgressPort :=
  { queue := e.queue ++ [n], state := match e.state with | .idle => .sending | .idleGap => .idleGap | .sending => .sending }

def State.appendEgress (s : State) (p : Port) (n : Nat) : State :=
  s.mapEgress fun q => q.set p ((q.get p).append n)

/-- Releases a received frame (R117). -/
def State.releaseRx (s : State) (n : Nat) : State := s.mapRxPool (·.release n)

/-- Returns a transmit frame to the pool. -/
def State.freeTx (s : State) (d : TxDescriptor) : State := s.mapTxPool (·.giveBackFrame d)

/-! ### The Event Queue (R178 to R184, R193) -/

def Severity.code : Severity → Nat
  | .info => 1
  | .warning => 2
  | .error => 3

/-- The severity of each kind (R178). -/
def EventKind.severity : EventKind → Severity
  | .restart => .info
  | .linkUp => .info
  | .linkDown => .warning
  | .txProtect => .warning
  | .txLinklossDiscard => .warning
  | .rxAbort => .warning
  | .creditViolation => .error
  | .poolExhausted => .warning
  | .commitDone => .info
  | .mgmtDropped => .warning
  | .peerTimeout => .warning
  | .lateReply => .info
  | .eventsLost => .error

/-- Codes of the kinds (R193). -/
def EventKind.code : EventKind → Nat
  | .restart => 1
  | .linkUp => 2
  | .linkDown => 3
  | .txProtect => 4
  | .txLinklossDiscard => 5
  | .rxAbort => 6
  | .creditViolation => 7
  | .poolExhausted => 8
  | .commitDone => 9
  | .mgmtDropped => 10
  | .peerTimeout => 11
  | .lateReply => 12
  | .eventsLost => 13

/-- Encoding of a subject (R193). -/
def Subject.code : Subject → Byte
  | .none => 0x00#8
  | .port p => 0x10#8 + BitVec.ofNat 8 p.val
  | .level l => 0x20#8 + BitVec.ofNat 8 l.val

/-- An event record as 16 bytes (R193). -/
def recordBytes (r : EventRecord) : List Byte :=
  halfBytes r.sequence ++ wordBytes r.time ++
    [BitVec.ofNat 8 r.kind.code, BitVec.ofNat 8 r.kind.severity.code, r.subject.code, flagBit r.stream.isSome 7] ++
    halfBytes (r.stream.getD 0#16) ++ halfBytes r.detail ++ [0#8, 0#8]

/-- Payload of a NOTICE: two zero bytes, the notice type, the record (R183). -/
def noticeBytes (r : EventRecord) : List Byte := [0#8, 0#8, 3#8] ++ recordBytes r

/-- The Agent's claim on the reserve and the append to a port (R112, R126). -/
def State.placeReserve (s : State) (p : Port) (stream : Half) (payload : List Byte) : Option (Nat × State) :=
  match s.rxPool.claimReserve stream payload with
  | none => none
  | some (n, pool) => some (n, (s.mapRxPool fun _ => pool).appendEgress p n)

/-- Whether a record calls for a NOTICE (R183). -/
def State.noticeDue (s : State) (k : EventKind) : Bool :=
  s.config.active.part.noticeEnabled &&
    decide (s.config.active.part.noticeThreshold.code ≤ k.severity.code) && !s.agent.noticeLatch

/-- Builds and appends a NOTICE, or counts it as dropped (R183). -/
def State.sendNotice (s : State) (r : EventRecord) : State :=
  match s.placeReserve s.config.active.part.noticePort s.config.active.part.noticeStream (noticeBytes r) with
  | none => s.countMgmt .noticesDropped
  | some (_, s') => (s'.mapAgent fun a => { a with noticeLatch := true }).countMgmt .noticesSent

def State.noticeCheck (s : State) (r : EventRecord) : State := if s.noticeDue r.kind then s.sendNotice r else s

/-- A record at the tail with the next sequence number (R178, R180). -/
def EventQueue.accept (q : EventQueue) (r : EventRecord) : EventQueue :=
  { records := q.records ++ [r], nextSeq := q.nextSeq + 1#16 }

/-- One more refusal in the loss record, up to 65535 (R180). -/
def EventRecord.addLoss (r : EventRecord) : EventRecord :=
  if r.kind = .eventsLost ∧ r.detail ≠ 65535#16 then { r with detail := r.detail + 1#16 } else r

def EventQueue.holdsLoss (q : EventQueue) : Bool := q.records.any fun r => decide (r.kind = .eventsLost)

/-- A record as the queue would accept it now. -/
def State.makeRecord (s : State) (k : EventKind) (subject : Subject) (stream : Option Half) (detail : Half) :
    EventRecord :=
  { sequence := s.events.nextSeq, time := s.now, kind := k, subject := subject, stream := stream, detail := detail }

/-- Accepts a record and makes the notice check for it. -/
def State.acceptRecord (s : State) (r : EventRecord) : State := (s.mapEvents (·.accept r)).noticeCheck r

/-- Offers a record to the Event Queue (R180). -/
def State.offerEvent (s : State) (k : EventKind) (subject : Subject) (stream : Option Half) (detail : Half) : State :=
  if s.events.records.length < Config.eventPlaces then s.acceptRecord (s.makeRecord k subject stream detail)
  else if s.events.holdsLoss then s.mapEvents fun q => { q with records := q.records.map (·.addLoss) }
  else s.acceptRecord (s.makeRecord .eventsLost .none none 1#16)

end Sys2Proof.Machine
end

