-- ==== Sys2Proof/Machine/Operands.lean ====
section
/-! DEFINITION. The byte layouts of the Formats chapter: trunk segments as they are sent and as they are checked on
arrival, station frames, management payloads, and the encodings of table entries. -/

namespace Sys2Proof.Machine

/-! ### Cutting a frame into segments (R3) -/

/-- Number of segments of a frame of N bytes. -/
def segmentCount (n : Nat) : Nat := if n ≤ 64 then 1 else cellsFor n

/-- Kind of the segment at an index of a frame of N bytes. -/
def segmentKind (n i : Nat) : DataKind :=
  if segmentCount n = 1 then .whole
  else if i = 0 then .start
  else if i + 1 < segmentCount n then .middle
  else .end_

/-- Payload length P of the segment at an index. -/
def segmentLength (n i : Nat) : Nat := if i + 1 < segmentCount n then 64 else n - 64 * i

def DataSegment.payloadLength (d : DataSegment) : Nat := segmentLength d.frame.frameLength d.index

/-- Payload bytes 64·i to 64·i + P − 1 of the frame. -/
def DataSegment.payload (d : DataSegment) : List Byte :=
  ((chainBytes d.frame.cells).drop (64 * d.index)).take d.payloadLength

/-- A segment after whose completion the frame has ended. -/
def DataKind.closes : DataKind → Bool
  | .start => false
  | .middle => false
  | .end_ => true
  | .whole => true

/-- Kinds that carry stream number and frame length. -/
def DataKind.opens : DataKind → Bool
  | .start => true
  | .middle => false
  | .end_ => false
  | .whole => true

/-! ### The trunk segment as sent (R190) -/

def DataKind.code : DataKind → Nat
  | .start => 1
  | .middle => 2
  | .end_ => 3
  | .whole => 4

/-- Byte 0: the kind code above, the level below (R190). -/
def kindByte (code : Nat) (level : Nat) : Byte := BitVec.ofNat 8 (16 * code + level)

def limitBytes (q : Four Half) : List Byte :=
  halfBytes q.at0 ++ halfBytes q.at1 ++ halfBytes q.at2 ++ halfBytes q.at3

/-- The bytes of a data segment before its CRC (R1, R190). -/
def DataSegment.body (d : DataSegment) : List Byte :=
  [kindByte d.kind.code d.level.val, d.tag] ++ halfBytes d.seq ++ [BitVec.ofNat 8 d.payloadLength] ++
    (if d.kind.opens then halfBytes d.frame.trunkStream ++ halfBytes (BitVec.ofNat 16 d.frame.frameLength) else []) ++
    d.payload

/-- The bytes of a segment before its CRC; level, tag and sequence number of a control segment are 0 (R2). -/
def Segment.body : Segment → List Byte
  | .data d => d.body
  | .control limits => [kindByte 8 0, 0#8, 0#8, 0#8, 8#8] ++ limitBytes limits
  | .hello heardYou limits => [kindByte 9 0, 0#8, 0#8, 0#8, 9#8, flagBit heardYou 0] ++ limitBytes limits

/-- The bytes of a segment between its delimiters (R6). -/
def Segment.bytes (g : Segment) : List Byte := withCrc g.body

/-! ### The check on arrival (R9) -/

/-- A good data segment as read (R1). Stream number and frame length are those of a START or WHOLE, 0 otherwise. -/
structure RxData where
  kind : DataKind
  level : Level
  tag : Byte
  seq : Half
  stream : Half
  length : Nat
  payload : List Byte
  deriving DecidableEq, Repr

/-- A good segment as handed on. -/
inductive GoodSegment where
  | data (d : RxData)
  | control (limits : Four Half)
  | hello (heardYou : Bool) (limits : Four Half)
  deriving DecidableEq, Repr

def limitsAt (bs : List Byte) (i : Nat) : Four Half :=
  ⟨halfAt bs i, halfAt bs (i + 2), halfAt bs (i + 4), halfAt bs (i + 6)⟩

/-- Two low bits of byte 0. -/
def levelBits (b : Byte) : Level := ⟨b.toNat % 4, Nat.mod_lt _ (by decide)⟩

/-- Reads a START or WHOLE from its bytes. -/
def readOpening (kind : DataKind) (bs : List Byte) : GoodSegment :=
  .data
    { kind := kind, level := levelBits (byteAt bs 0), tag := byteAt bs 1, seq := halfAt bs 2, stream := halfAt bs 5
      length := (halfAt bs 7).toNat, payload := (bs.drop 9).take (byteAt bs 4).toNat }

/-- Reads a MIDDLE or END from its bytes. -/
def readContinuing (kind : DataKind) (bs : List Byte) : GoodSegment :=
  .data
    { kind := kind, level := levelBits (byteAt bs 0), tag := byteAt bs 1, seq := halfAt bs 2, stream := 0#16
      length := 0, payload := (bs.drop 5).take (byteAt bs 4).toNat }

/-- The check of R9 on the bytes received up to an end delimiter, and what a good segment says. -/
def checkSegment (bs : List Byte) : Option GoodSegment :=
  let p := (byteAt bs 4).toNat
  let n := (halfAt bs 7).toNat
  if (byteAt bs 0).toNat / 4 % 4 ≠ 0 then none
  else if bs.length < 2 then none
  else if crc16 (bs.take (bs.length - 2)) ≠ halfAt bs (bs.length - 2) then none
  else
    match (byteAt bs 0).toNat / 16 with
    | 1 => if p = 64 ∧ bs.length = 9 + p + 2 ∧ 65 ≤ n ∧ n ≤ 1536 then some (readOpening .start bs) else none
    | 2 => if p = 64 ∧ bs.length = 5 + p + 2 then some (readContinuing .middle bs) else none
    | 3 => if 1 ≤ p ∧ p ≤ 64 ∧ bs.length = 5 + p + 2 then some (readContinuing .end_ bs) else none
    | 4 => if 1 ≤ p ∧ p ≤ 64 ∧ bs.length = 9 + p + 2 ∧ n = p then some (readOpening .whole bs) else none
    | 8 => if p = 8 ∧ bs.length = 5 + p + 2 then some (.control (limitsAt bs 5)) else none
    | 9 =>
      if p = 9 ∧ bs.length = 5 + p + 2 ∧ (byteAt bs 5).toNat ≤ 1 then
        some (.hello (decide (byteAt bs 5 = 1#8)) (limitsAt bs 6))
      else none
    | _ => none

/-! ### Station frames (R189, R128) -/

/-- The bytes of a station frame. -/
def stationFrame (stream : Half) (payload : List Byte) : List Byte :=
  withCrc (halfBytes stream ++ halfBytes (BitVec.ofNat 16 payload.length) ++ payload)

/-- The bytes a Station Port Transmitter sends for a frame (R128). -/
def RxDescriptor.frameBytes (d : RxDescriptor) : List Byte :=
  withCrc (halfBytes d.stream ++ halfBytes (BitVec.ofNat 16 d.length) ++ (chainBytes d.chain).take d.length)

/-! ### Management payloads (section 11.3) -/

inductive Status where
  | ok | busy | range | duplicate | invalid | generation | notPermitted | noBuffer | malformed | peerTimeout | linkDown
  | peerBusy
  deriving DecidableEq, Repr

def Status.code : Status → Nat
  | .ok => 0
  | .busy => 1
  | .range => 2
  | .duplicate => 3
  | .invalid => 4
  | .generation => 5
  | .notPermitted => 6
  | .noBuffer => 7
  | .malformed => 8
  | .peerTimeout => 9
  | .linkDown => 10
  | .peerBusy => 11

def Request.tag (r : Request) : Half := halfAt r.payload 0
def Request.type (r : Request) : Byte := byteAt r.payload 2
def Request.command (r : Request) : Byte := byteAt r.payload 3
def Request.replyStream (r : Request) : Half := halfAt r.payload 4
def Request.args (r : Request) : List Byte := r.payload.drop 6

/-- A reply: tag, type, command, status, results (R159). -/
def replyBytes (tag : Half) (command : Byte) (status : Status) (results : List Byte) : List Byte :=
  halfBytes tag ++ [2#8, command, BitVec.ofNat 8 status.code] ++ results

/-! ### Table entries (R192) -/

/-- The five records by their table code. -/
inductive Table where
  | streams | deliveries | levels | ports | part
  deriving DecidableEq, Repr

def tableOfCode (b : Byte) : Option Table :=
  match b.toNat with
  | 1 => some .streams
  | 2 => some .deliveries
  | 3 => some .levels
  | 4 => some .ports
  | 5 => some .part
  | _ => none

/-- Entries of a table. -/
def Table.size : Table → Nat
  | .streams => Config.tableEntries
  | .deliveries => Config.tableEntries
  | .levels => 4
  | .ports => 4
  | .part => 1

/-- Bytes of an entry of a table. -/
def Table.entryLength : Table → Nat
  | .streams => 8
  | .deliveries => 6
  | .levels => 12
  | .ports => 4
  | .part => 10

def zeroBytes (n : Nat) : List Byte := List.replicate n 0#8

def MatchPort.code : MatchPort → Byte
  | .port p => BitVec.ofNat 8 p.val
  | .any => 0x0F#8

def Action.isDrop : Action → Bool
  | .forward => false
  | .drop => true

def actionOf (drop : Bool) : Action := if drop then .drop else .forward

def maskByte (q : Four Bool) : Byte := flagBit q.at0 0 + flagBit q.at1 1 + flagBit q.at2 2 + flagBit q.at3 3

/-- An invalid entry reads back as zeros. -/
def streamBytes : Option StreamEntry → List Byte
  | none => zeroBytes 8
  | some e =>
    [flagBit true 7 + flagBit e.atomic 6 + flagBit e.action.isDrop 5 + flagBit e.trunkStream.isSome 4, e.matchPort.code,
      BitVec.ofNat 8 e.level.val, 0#8] ++ halfBytes e.stream ++ halfBytes (e.trunkStream.getD 0#16)

def deliveryBytes : Option DeliveryEntry → List Byte
  | none => zeroBytes 6
  | some e =>
    [flagBit true 7 + flagBit e.egressStream.isSome 6, maskByte e.portMask] ++ halfBytes e.stream ++
      halfBytes (e.egressStream.getD 0#16)

def natHalf (n : Nat) : List Byte := halfBytes (BitVec.ofNat 16 n)

def levelBytes (e : LevelEntry) : List Byte :=
  natHalf e.txQueueLimit ++ [flagBit e.preemptible 7 + flagBit e.retain 6, 0#8] ++ natHalf e.maxSuspension ++
    natHalf e.rxAllotment ++ natHalf e.rxAgeLimit ++ [0#8, 0#8]

def portBytes (e : PortSettings) : List Byte :=
  [flagBit e.enabled 7 + flagBit e.defaultAction.isDrop 6 + flagBit e.mgmtPermitted 5,
    BitVec.ofNat 8 e.defaultLevel.val] ++ natHalf e.egressLimit

def partBytes (e : PartSettings) : List Byte :=
  [flagBit e.noticeEnabled 7 + flagBit e.remoteMgmt 6, BitVec.ofNat 8 e.noticePort.val] ++ halfBytes e.noticeStream ++
    [BitVec.ofNat 8 e.noticeThreshold.code, BitVec.ofNat 8 e.mgmtLevel.val] ++ natHalf e.peerTimeout ++
    [maskByte e.unknownMask, 0#8]

/-- A byte that holds a level or a port. -/
def fourOf (b : Byte) : Option (Fin 4) := if h : b.toNat < 4 then some ⟨b.toNat, h⟩ else none

def matchPortOf (b : Byte) : Option MatchPort := if b = 0x0F#8 then some .any else (fourOf b).map .port

/-- A port mask byte; one with any of bits 7 to 4 set is refused, the model's choice (R137, R140, R192, log 35). -/
def maskOf (b : Byte) : Option (Four Bool) :=
  if b.toNat < 16 then some ⟨b.getLsbD 0, b.getLsbD 1, b.getLsbD 2, b.getLsbD 3⟩ else none

def severityOf (b : Byte) : Option Severity :=
  match b.toNat with
  | 1 => some .info
  | 2 => some .warning
  | 3 => some .error
  | _ => none

/-- A stream number of a table, which is never 65535. -/
def userStream (h : Half) : Option Half := if h = Config.mgmtStream then none else some h

/-- A stream number with a presence bit; one that is absent is not read. -/
def optionalStream (present : Bool) (h : Half) : Option (Option Half) :=
  if present then (userStream h).map some else some none

/-- A number that must lie in a range. -/
def inRange (n lo hi : Nat) : Option Nat := if lo ≤ n ∧ n ≤ hi then some n else none

/-- A byte whose given low bits must be 0. -/
def lowBitsClear (b : Byte) (bits : Nat) : Option Unit := if b.toNat % 2 ^ bits = 0 then some () else none

/-- The valid bit of a Stream or Delivery Table entry. -/
def validBit (bs : List Byte) : Bool := (byteAt bs 0).getLsbD 7

/-- A valid Stream Table entry as written; none where a field is out of range (R136, R192). -/
def readStreamEntry (bs : List Byte) : Option StreamEntry := do
  let flags := byteAt bs 0
  lowBitsClear flags 4
  let m ← matchPortOf (byteAt bs 1)
  let l ← fourOf (byteAt bs 2)
  lowBitsClear (byteAt bs 3) 8
  let n ← userStream (halfAt bs 4)
  let t ← optionalStream (flags.getLsbD 4) (halfAt bs 6)
  some { matchPort := m, stream := n, action := actionOf (flags.getLsbD 5), level := l, atomic := flags.getLsbD 6
         trunkStream := t }

/-- A valid Delivery Table entry as written (R137, R192). -/
def readDeliveryEntry (bs : List Byte) : Option DeliveryEntry := do
  let flags := byteAt bs 0
  lowBitsClear flags 6
  let m ← maskOf (byteAt bs 1)
  let n ← userStream (halfAt bs 2)
  let e ← optionalStream (flags.getLsbD 6) (halfAt bs 4)
  some { stream := n, portMask := m, egressStream := e }

/-- A max suspension: 0, or 100 to 65535 (R138). -/
def suspensionOf (n : Nat) : Option Nat := if n = 0 then some 0 else inRange n 100 65535

/-- A Level Table entry as written (R138, R192). -/
def readLevelEntry (bs : List Byte) : Option LevelEntry := do
  let flags := byteAt bs 2
  let q ← inRange (halfAt bs 0).toNat 0 1024
  lowBitsClear flags 6
  lowBitsClear (byteAt bs 3) 8
  let u ← suspensionOf (halfAt bs 4).toNat
  let a ← inRange (halfAt bs 6).toNat 0 1008
  let g ← inRange (halfAt bs 8).toNat 1 1000
  lowBitsClear (byteAt bs 10) 8
  lowBitsClear (byteAt bs 11) 8
  some { txQueueLimit := q, preemptible := flags.getLsbD 7, maxSuspension := u, rxAllotment := a
         retain := flags.getLsbD 6, rxAgeLimit := g }

/-- A Port Settings record as written (R139, R192). -/
def readPortSettings (bs : List Byte) : Option PortSettings := do
  let flags := byteAt bs 0
  lowBitsClear flags 5
  let l ← fourOf (byteAt bs 1)
  let e ← inRange (halfAt bs 2).toNat 0 1024
  some { enabled := flags.getLsbD 7, defaultAction := actionOf (flags.getLsbD 6), defaultLevel := l
         mgmtPermitted := flags.getLsbD 5, egressLimit := e }

/-- The Part Settings record as written (R140, R192). -/
def readPartSettings (bs : List Byte) : Option PartSettings := do
  let flags := byteAt bs 0
  lowBitsClear flags 6
  let p ← fourOf (byteAt bs 1)
  let v ← severityOf (byteAt bs 4)
  let l ← fourOf (byteAt bs 5)
  let t ← inRange (halfAt bs 6).toNat 1 1000
  let m ← maskOf (byteAt bs 8)
  lowBitsClear (byteAt bs 9) 8
  some { noticeEnabled := flags.getLsbD 7, noticePort := p, noticeStream := halfAt bs 2, noticeThreshold := v
         remoteMgmt := flags.getLsbD 6, mgmtLevel := l, peerTimeout := t, unknownMask := m }

/-- The bytes READ ENTRIES returns for one index of a table (R162, R192). -/
def Bank.entryBytes (b : Bank) (t : Table) (i : Nat) : List Byte :=
  match t with
  | .streams => streamBytes (sparseGet i b.streams)
  | .deliveries => deliveryBytes (sparseGet i b.deliveries)
  | .levels => levelBytes (b.levels.get (Fin.ofNat 4 i))
  | .ports => portBytes (b.ports.get (Fin.ofNat 4 i))
  | .part => partBytes b.part

end Sys2Proof.Machine
end

