-- ==== Sys2Proof/Machine/Flags.lean ====
section
/-! DEFINITION. The marks and flags the blocks compute: the exhaustion-reported flags, the credit limits and CONTROL
due, the discarding mark, and preemption. -/

namespace Sys2Proof.Machine

/-! ### Exhaustion-reported flags (R106, R118) -/

/-- Detail of POOL_EXHAUSTED: 256 × pool + resource; resource 1 is a descriptor, 2 a cell. -/
def exhaustedDetail (pool resource : Nat) : Half := BitVec.ofNat 16 (256 * pool + resource)

/-- A failed claim on the Transmit Pool (R106). -/
def State.txClaimFailed (s : State) (subject : Subject) (resource : Nat) : State :=
  if s.txPool.exhaustionReported then s
  else
    (s.mapTxPool fun p => { p with exhaustionReported := true }).offerEvent .poolExhausted subject none
      (exhaustedDetail 0 resource)

/-- A failed claim on the level part of the Receive Pool (R118). -/
def State.rxClaimFailed (s : State) (l : Level) (stream : Half) (resource : Nat) : State :=
  if s.rxPool.exhaustionReported then s
  else
    (s.mapRxPool fun p => { p with exhaustionReported := true }).offerEvent .poolExhausted (.level l) (some stream)
      (exhaustedDetail 1 resource)

/-! ### Credit (R28, R73, R84, R85) -/

/-- A level has credit for one segment (R28). -/
def State.hasCredit (s : State) (l : Level) : Bool :=
  match s.link.txCredit.get l with
  | none => false
  | some limit => seqAhead limit (s.sched.nextSeq.get l)

/-- The next-expected number e(L); it holds a value whenever the link is UP. -/
def State.expectedAt (s : State) (l : Level) : Half :=
  match s.reasm.expected with
  | none => 0#16
  | some e => e.get l

/-- free(L): the allotment less the cells held, or 0 (R84). -/
def State.freeCells (s : State) (l : Level) : Nat := s.link.allotment.get l - s.heldCells l

/-- The computed limit (R84). -/
def State.computedLimit (s : State) (l : Level) : Half := s.expectedAt l + BitVec.ofNat 16 (s.freeCells l)

/-- The advertised value: it never moves back (R84). -/
def State.advertisedValue (s : State) (l : Level) : Half :=
  match s.link.lastAdvertised.get l with
  | none => s.computedLimit l
  | some a => if seqAhead (s.computedLimit l) a then s.computedLimit l else a

/-- The initial limit a HELLO carries (R73). -/
def State.initialLimit (s : State) (l : Level) : Half :=
  BitVec.ofNat 16 ((s.config.active.levels.get l).rxAllotment - s.heldCells l)

/-- The comparison made at a report of level L (R85): a limit ahead starts its advance time, and one 8 to 32767 ahead
makes a CONTROL due. -/
def LinkController.compareLimit (k : LinkController) (now : Time) (limit : Half) (l : Level) : LinkController :=
  match k.lastAdvertised.get l with
  | none => k
  | some a =>
    if seqAhead limit a then
      { k with
        advanceTime := if (k.advanceTime.get l).isNone then k.advanceTime.set l (some now) else k.advanceTime
        advanceDeadline :=
          if (k.advanceTime.get l).isNone then k.advanceDeadline.set l (some (timeAfter now Config.advanceAge))
          else k.advanceDeadline
        controlDue := k.controlDue || decide (Config.advanceStep ≤ (limit - a).toNat) }
    else k

/-- The report of level L to the Link Controller, which acts on it only while the link is UP (R85, R115). -/
def State.reportLevel (s : State) (l : Level) : State :=
  if s.link.state = .up then s.mapLink (·.compareLimit s.now (s.computedLimit l) l) else s

/-- An event changed what level L's limit is computed from: e(L) or the cells held at L (R61, R115). -/
def limitMoved (before after : State) (l : Level) : Bool :=
  decide (before.expectedAt l ≠ after.expectedAt l) || decide (before.heldCells l ≠ after.heldCells l)

/-- The reports of one event, taken when the event is whole (log 15). -/
def reportMoved (before s : State) : State :=
  fourIndices.foldl (fun s l => if limitMoved before s l then s.reportLevel l else s) s

/-! ### Preemption (R20, R30, R33) -/

/-- No entry carries a protected mark. -/
def noneProtected (stack : List TxEntry) : Bool := stack.all fun e => !e.protectedMark

/-- Whether new frames may start above the top frame (R20). -/
def State.preemptionAllowed (s : State) (top : TxEntry) : Bool :=
  !top.atomic && (s.config.active.levels.get top.frame.level).preemptible && noneProtected s.sched.stack

/-! ### Discarding (R55) -/

/-- The reason an abort reports: the first discarding reason, or else the aborting rule's (R56). -/
def RxEntry.reportedReason (e : RxEntry) (r : AbortReason) : AbortReason := e.discarding.getD r

/-- Sets the mark of an entry, keeping its first reason (R55). -/
def RxEntry.mark (r : AbortReason) (e : RxEntry) : RxEntry := { e with discarding := some (e.discarding.getD r) }

/-- Returns the cells of an entry that was not yet discarding (R55). -/
def State.returnEntryCells (s : State) (e : RxEntry) : State :=
  match e.discarding, e.descriptor with
  | none, some n => s.mapRxPool (·.dropCells n)
  | _, _ => s

/-- Marks the frame open at a level discarding; its cells return at the first marking (R55). -/
def State.markDiscarding (s : State) (l : Level) (r : AbortReason) : State :=
  match s.reasm.stack.find? (fun e => decide (e.level = l)) with
  | none => s
  | some e =>
    (s.returnEntryCells e).mapReasm fun a =>
      { a with stack := a.stack.map fun x => if x.level = l then x.mark r else x }

end Sys2Proof.Machine
end

