-- ==== Sys2Proof/Machine/Scheduler.lean ====
section
/-! DEFINITION. The Trunk Transmitter's slots and the Transmit Scheduler: admission, selection, completion, flush and
the teardown at a DOWN event. -/

namespace Sys2Proof.Machine

/-! ### The Trunk Transmitter (R11, R12) -/

/-- A segment starts on the line; the limits of a HELLO that starts are kept for the entry to UP (R76). -/
def TrunkTx.start (t : TrunkTx) (g : Segment) : TrunkTx :=
  { t with
    inFlight := some g
    cutOff := false
    lastHello := match g with
      | .data _ => t.lastHello
      | .control _ => t.lastHello
      | .hello _ limits => some limits }

/-- Places a segment in the latch; with the line idle it starts at once. Nothing replaces a latched segment (R11). -/
def TrunkTx.place (t : TrunkTx) (g : Segment) : TrunkTx :=
  match t.latch with
  | some _ => t
  | none =>
    match t.inFlight with
    | none => t.start g
    | some _ => { t with latch := some g }

/-- The end delimiter of a cut-off segment stands on the line once the slots are abandoned: the in-flight segment's, or
one that has not gone out yet (R12). -/
def TrunkTx.cutsOff (t : TrunkTx) : Bool := t.cutOff || t.inFlight.isSome

/-- Both slots are abandoned (R12). -/
def TrunkTx.abandon (t : TrunkTx) : TrunkTx := { t with inFlight := none, latch := none, cutOff := t.cutsOff }

/-- The Trunk Transmitter after a FULL or TRAFFIC restart: empty, a segment in flight cut off (R12). -/
def TrunkTx.restart (t : TrunkTx) : TrunkTx := { TrunkTx.cold with cutOff := t.cutsOff }

/-- The byte time of an end delimiter that closes a cut-off segment is over (R12). -/
def TrunkTx.delimiterSent (t : TrunkTx) : TrunkTx := { t with cutOff := false }

def State.placeSegment (s : State) (g : Segment) : State := s.mapTrunkTx (·.place g)

/-! ### Numbering and queues (R13, R22) -/

def Scheduler.setQueue (k : Scheduler) (l : Level) (q : List TxDescriptor) : Scheduler :=
  { k with queues := k.queues.set l q }

/-- The level's next-sequence counter advances (R5). -/
def Scheduler.takeSeq (k : Scheduler) (l : Level) : Scheduler :=
  { k with nextSeq := k.nextSeq.set l (k.nextSeq.get l + 1#16) }

/-- The level's next-tag counter advances (R4). -/
def Scheduler.takeTag (k : Scheduler) (l : Level) : Scheduler :=
  { k with nextTag := k.nextTag.set l (k.nextTag.get l + 1#8) }

/-! ### What each selected segment does (section 2.5) -/

/-- R19, R87: the CONTROL carries the advertised values, which become the last-advertised limits. -/
def State.selectControl (s : State) : State :=
  let limits := Four.make s.advertisedValue
  (s.mapLink fun k =>
    { k with
      lastAdvertised := Four.make fun l => some (limits.get l)
      advanceTime := Four.all none
      advanceDeadline := Four.all none
      controlDue := false }).placeSegment (.control limits)

/-- The old top is suspended: it receives a deadline if it has none and the level's max suspension is not 0 (R31). -/
def TxEntry.suspend (e : TxEntry) (now : Time) (maxSuspension : Nat) : TxEntry :=
  if e.suspensionDeadline.isNone ∧ maxSuspension ≠ 0 then
    { e with suspensionDeadline := some (timeAfter now maxSuspension) }
  else e

/-- The stack with its top suspended, under the Active Level Table (R31). -/
def State.suspendedStack (s : State) : List TxEntry :=
  match s.sched.stack with
  | [] => []
  | e :: es => e.suspend s.now (s.config.active.levels.get e.frame.level).maxSuspension :: es

/-- R23: the frame leaves the head of its queue and is pushed; a START over an open frame is a preemption. -/
def State.selectStart (s : State) (l : Level) (f : TxDescriptor) (rest : List TxDescriptor) : State :=
  let segment : DataSegment :=
    { kind := .start, level := l, tag := s.sched.nextTag.get l, seq := s.sched.nextSeq.get l, index := 0, frame := f }
  let entry : TxEntry :=
    { frame := f, tag := s.sched.nextTag.get l, nextIndex := 1, atomic := f.atomic, suspensionDeadline := none
      protectedMark := false }
  let s' := s.mapSched fun k => { ((k.takeSeq l).takeTag l).setQueue l rest with stack := entry :: s.suspendedStack }
  (if s.sched.stack.isEmpty then s' else s'.countLevel l .preemptions).placeSegment (.data segment)

/-- R24: the frame leaves the head of its queue and passes to the Trunk Transmitter; the stack is unchanged. -/
def State.selectWhole (s : State) (l : Level) (f : TxDescriptor) (rest : List TxDescriptor) : State :=
  let segment : DataSegment :=
    { kind := .whole, level := l, tag := s.sched.nextTag.get l, seq := s.sched.nextSeq.get l, index := 0, frame := f }
  let s' := s.mapSched fun k => ((k.takeSeq l).takeTag l).setQueue l rest
  (if s.sched.stack.isEmpty then s' else s'.countLevel l .wholeInsertions).placeSegment (.data segment)

/-- The first segment of the head of a level's queue: a WHOLE for 1 to 64 bytes, a START for more (R20). -/
def State.selectFirst (s : State) (l : Level) : State :=
  match s.sched.queues.get l with
  | [] => s
  | f :: rest => if segmentCount f.frameLength = 1 then s.selectWhole l f rest else s.selectStart l f rest

/-- R21, R25, R26: the next segment of the top frame, a MIDDLE or, at index k − 1, its END, which pops it. -/
def State.selectNext (s : State) (top : TxEntry) (below : List TxEntry) : State :=
  let l := top.frame.level
  let last := !decide (top.nextIndex + 1 < segmentCount top.frame.frameLength)
  let segment : DataSegment :=
    { kind := if last then .end_ else .middle, level := l, tag := top.tag, seq := s.sched.nextSeq.get l
      index := top.nextIndex, frame := top.frame }
  (s.mapSched fun k =>
    { k.takeSeq l with
      stack :=
        if last then below else { top with nextIndex := top.nextIndex + 1, suspensionDeadline := none } :: below }).placeSegment
    (.data segment)

/-! ### Selection (sections 2.3 and 2.4) -/

/-- Whether a new frame may start at a level (R20). -/
def State.isCandidate (s : State) (l : Level) : Bool :=
  (match s.sched.stack with
    | [] => true
    | top :: _ => decide (top.frame.level < l) && s.preemptionAllowed top) &&
    !(s.sched.queues.get l).isEmpty && s.hasCredit l

/-- The highest candidate level with a queued frame and credit (R20). -/
def State.startLevel (s : State) : Option Level := [3, 2, 1, 0].find? s.isCandidate

/-- One selection by the order of preference: CONTROL, new frame, continue, idle (R18 to R21). -/
def State.select (s : State) : State :=
  if s.link.controlDue then s.selectControl
  else
    match s.startLevel with
    | some l => s.selectFirst l
    | none =>
      match s.sched.stack with
      | [] => s
      | top :: below => if s.hasCredit top.frame.level then s.selectNext top below else s

/-- A selection is made only while the link is UP and the latch is empty (R17). -/
def State.selectIfFree (s : State) : State :=
  if s.link.state = .up ∧ s.trunkTx.latch = none then s.select else s

/-- A selection trigger. A segment placed while the line is idle starts at once, and its start is a selection point
(R11, R17). -/
def State.selectionTrigger (s : State) : State :=
  if s.trunkTx.inFlight.isNone then s.selectIfFree.selectIfFree else s.selectIfFree

/-- The Link Controller reports CONTROL due changing from no to yes, a selection trigger (R85). -/
def State.triggerIfDue (before s : State) : State :=
  if before.link.controlDue = false ∧ s.link.controlDue = true then s.selectionTrigger else s

/-- The credit reports of one event and the selection they may call for (R61, R85, log 15). -/
def creditReport (before s : State) : State := State.triggerIfDue s (reportMoved before s)

/-! ### Admission (R14) -/

/-- A frame joins the tail of its Level Queue; the Time Base at the event is its admission time. -/
def State.joinQueue (s : State) (d : TxDescriptor) : State :=
  (s.mapSched fun k =>
    k.setQueue d.level (k.queues.get d.level ++ [{ d with admissionTime := s.now }])).countLevel d.level .framesAdmitted

/-- Admission, which is a selection trigger (R14, R17). -/
def State.admission (s : State) (d : TxDescriptor) : State := (s.joinQueue d).selectionTrigger

/-! ### Completion (R11, R34, R86) -/

/-- The Scheduler's part of a data segment's completion: an END or WHOLE frees its frame (R34). -/
def State.dataCompleted (s : State) (d : DataSegment) : State :=
  let s' := s.countLevel d.level .segmentsSent
  if d.kind.closes then (s'.freeTx d.frame).countLevel d.level .framesSent else s'

/-- The completed segment is counted and reported to Scheduler and Link Controller; the in-flight slot is empty (R11,
R86, R87). -/
def State.segmentCompleted (s : State) (g : Segment) : State :=
  let s1 := (s.mapTrunkTx fun t => { t with inFlight := none }).countTrunk .segmentsSent
  let s2 :=
    if s1.link.state = .up then
      s1.mapLink fun k => { k with keepaliveDeadline := some (timeAfter s1.now Config.keepaliveTime) }
    else s1
  match g with
  | .data d => s2.dataCompleted d
  | .control _ => s2.countTrunk .controlSent
  | .hello _ _ => s2

/-- The latched segment, if any, starts; the start is a selection point (R11, R17). -/
def State.startLatched (s : State) : State :=
  match s.trunkTx.latch with
  | none => s
  | some g => (s.mapTrunkTx fun t => { t.start g with latch := none }).selectionTrigger

/-! ### FLUSH LEVEL (R35) -/

def State.freeTxAll (s : State) (ds : List TxDescriptor) : State := ds.foldl (fun s d => s.freeTx d) s

/-- Removes and frees every frame of a Level Queue. -/
def State.flush (s : State) (l : Level) : State :=
  ((s.freeTxAll (s.sched.queues.get l)).mapSched fun k => k.setQueue l []).countLevelBy l .flushed
    (s.sched.queues.get l).length

/-! ### Teardown on link loss (R37 to R41) -/

/-- The frame a slot holds when its END or WHOLE is there (R37). -/
def slotFrame : Option Segment → List TxDescriptor
  | some (.data d) => if d.kind.closes then [d.frame] else []
  | some (.control _) => []
  | some (.hello _ _) => []
  | none => []

/-- The frames taken in hand, in the order their first segments were selected at each level (R37, R38). -/
def State.inHand (s : State) : List TxDescriptor :=
  slotFrame s.trunkTx.inFlight ++ slotFrame s.trunkTx.latch ++ s.sched.stack.map (·.frame)

/-- Whether a frame taken in hand returns to its queue: a station frame of a level that retains (R37, R39). -/
def State.isRetained (s : State) (d : TxDescriptor) : Bool :=
  decide (d.origin = .station) && (s.config.active.levels.get d.level).retain

/-- Frames of a level that return to the head of its queue (R38). -/
def State.returnedTo (s : State) (l : Level) : List TxDescriptor :=
  s.inHand.filter fun d => decide (d.level = l) && s.isRetained d

/-- Frames of a level that are discarded: those taken in hand and not retained, and queued frames of Agent origin (R37,
R39). -/
def State.discardedAt (s : State) (l : Level) : List TxDescriptor :=
  (s.inHand.filter fun d => decide (d.level = l) && !s.isRetained d) ++
    (s.sched.queues.get l).filter fun d => !decide (d.origin = .station)

/-- Frames of one level settled at the DOWN event, by what the state was before it. -/
def settleLevel (before : State) (s : State) (l : Level) : State :=
  (((s.freeTxAll (before.discardedAt l)).mapSched fun k =>
      k.setQueue l (before.returnedTo l ++ (before.sched.queues.get l).filter fun d => decide (d.origin = .station))).countLevelBy
    l .linkLossRetained (before.returnedTo l).length).countLevelBy l .linkLossDiscarded (before.discardedAt l).length

/-- Number of frames discarded at the DOWN event (R40). -/
def State.discardCount (s : State) : Nat := (fourIndices.map fun l => (s.discardedAt l).length).sum

/-- The Scheduler's and the Trunk Transmitter's part of a DOWN event whose cause is not RESTART (R12, R37 to R40). -/
def State.txTeardown (s : State) : State :=
  let s1 := fourIndices.foldl (settleLevel s) s
  let s2 := (s1.mapSched fun k => { k with stack := [] }).mapTrunkTx (·.abandon)
  if s.discardCount = 0 then s2
  else s2.offerEvent .txLinklossDiscard .none none (BitVec.ofNat 16 s.discardCount)

end Sys2Proof.Machine
end

