-- ==== Sys2Proof/Machine/Mailbox.lean ====
section
/-! DEFINITION. The Management Agent's mail: management payloads as they arrive, replies as they are placed, and the
Pending Peer Table. -/

namespace Sys2Proof.Machine

/-! ### Arrival of management payloads (R156) -/

inductive DropReason where
  | short | long | queueFull | type
  deriving DecidableEq, Repr

/-- Detail of MGMT_DROPPED (R156). -/
def DropReason.code : DropReason → Nat
  | .short => 1
  | .long => 2
  | .queueFull => 3
  | .type => 4

/-- What becomes of a management payload. -/
inductive Arrival where
  | dropped (r : DropReason)
  | peerReply
  | request
  deriving DecidableEq, Repr

/-- The rows of R156, first that applies. -/
def classifyPayload (fromTrunk : Bool) (queued : Nat) (bs : List Byte) : Arrival :=
  if bs.length < 3 then .dropped .short
  else if Config.longestPayload < bs.length then .dropped .long
  else if fromTrunk = true ∧ byteAt bs 2 = 2#8 then (if 5 ≤ bs.length then .peerReply else .dropped .short)
  else if 1 < (byteAt bs 2).toNat then .dropped .type
  else if bs.length < 6 then .dropped .short
  else if Config.requestPlaces ≤ queued then .dropped .queueFull
  else .request

/-- A payload is dropped at arrival (R156). -/
def State.dropPayload (s : State) (subject : Subject) (r : DropReason) : State :=
  (s.countMgmt .droppedRequests).offerEvent .mgmtDropped subject none (BitVec.ofNat 16 r.code)

/-- A request joins the tail of the Management Request Queue (R156, R157). -/
def State.acceptRequest (s : State) (source : Source) (bs : List Byte) : State :=
  (s.mapAgent fun a => { a with requests := a.requests ++ [{ source := source, payload := bs }] }).countMgmt .requests

/-- A payload offered by the Classifier from a station port (R100, R156). -/
def State.stationPayload (s : State) (p : Port) (bs : List Byte) : State :=
  match classifyPayload false s.agent.requests.length bs with
  | .dropped r => s.dropPayload (.port p) r
  | .peerReply => s
  | .request => s.acceptRequest (.station p) bs

/-! ### Replies (R159, R160) -/

/-- A reply in the management reserve, appended to a station port's Egress Queue, or dropped and counted (R159). With
it comes the descriptor of a reply that was placed. -/
def State.localReply (s : State) (p : Port) (stream : Half) (bs : List Byte) : State × Option Nat :=
  match s.placeReserve p stream bs with
  | none => (s.countMgmt .repliesDropped, none)
  | some (n, s') => (s'.countMgmt .replies, some n)

/-- Answers an entry of the Pending Peer Table with a status (R173, R174). -/
def State.answerPeer (status : Status) (s : State) (e : PeerEntry) : State :=
  (s.localReply e.port e.replyStream (replyBytes e.originalTag e.command status [])).1

/-- Removes every entry and answers it LINK_DOWN, oldest first (R174). -/
def State.answerPeersDown (s : State) : State :=
  s.agent.peers.foldl (State.answerPeer .linkDown) (s.mapAgent fun a => { a with peers := [] })

/-- The resource a failed Agent claim reports: a descriptor when none is free, else a cell; with both short the manual
does not say (R106, log 19). -/
def State.shortResource (s : State) (cells : Nat) : Nat :=
  if s.txPool.freeDescs.isEmpty then
    if s.txPool.freeCells.length < cells then (if Config.bothShortReportsDesc s.freeCount then 1 else 2) else 1
  else 2

/-- A failed Agent claim on the Transmit Pool (R106). -/
def State.agentClaimFailed (s : State) (cells : Nat) : State :=
  s.useFree.txClaimFailed .none (s.shortResource cells)

/-- A frame the Agent builds in the Transmit Pool for the trunk: management level, stream 65535, not atomic (R160,
R171). The level is read from the Active bank as the event has it here, for the reply of a COMMIT the new one (R150,
log 33). -/
def State.agentFrame (s : State) (origin : Origin) (payload : List Byte) (n : Nat) (cells : List Nat) : TxDescriptor :=
  { number := n, level := s.config.active.part.mgmtLevel, atomic := false, trunkStream := Config.mgmtStream
    frameLength := payload.length, cells := fillCells cells payload, origin := origin, admissionTime := s.now
    ingressPort := none }

/-- The Agent's claim on the Transmit Pool and the admission of the frame built (R111, R160, R171). -/
def State.sendTrunk (s : State) (origin : Origin) (payload : List Byte) : State × Option Nat :=
  match s.txPool.claimFrame (cellsFor payload.length) with
  | none => (s.agentClaimFailed (cellsFor payload.length), none)
  | some (n, cells, pool) =>
    ((s.mapTxPool fun _ => pool).admission (s.agentFrame origin payload n cells), some n)

/-- A reply returned over the trunk, or dropped and counted (R160). -/
def State.trunkReply (s : State) (arrivalGeneration : Half) (bs : List Byte) : State × Option Nat :=
  if s.link.state = .up ∧ s.link.generation = arrivalGeneration then
    match s.sendTrunk .trunkReply bs with
    | (s', none) => (s'.countMgmt .repliesDropped, none)
    | (s', some n) => (s'.countMgmt .replies, some n)
  else (s.countMgmt .repliesDropped, none)

/-- The reply to a request, by its source (R159, R160). -/
def State.reply (s : State) (r : Request) (status : Status) (results : List Byte) : State × Option AwaitedReply :=
  match r.source with
  | .station p =>
    match s.localReply p r.replyStream (replyBytes r.tag r.command status results) with
    | (s', n) => (s', n.map (AwaitedReply.station p))
  | .trunk g =>
    match s.trunkReply g (replyBytes r.tag r.command status results) with
    | (s', n) => (s', n.map AwaitedReply.trunk)

/-! ### Payloads from the trunk (R156, R172) -/

/-- The entry a reply matches: its local tag and its command (R172). -/
def matchesPeer (tag : Half) (command : Byte) (e : PeerEntry) : Bool :=
  decide (e.localTag.setWidth 16 = tag) && decide (e.command = command)

/-- A matched reply is relayed: original tag, reply stream, the requester's Egress Queue (R172). -/
def State.relayReply (s : State) (n : Nat) (e : PeerEntry) : State :=
  (((s.mapAgent fun a => { a with peers := a.peers.erase e }).mapRxPool fun p =>
        p.mapDesc n fun d =>
          { d with
            stream := e.replyStream
            chain := overwriteFirst (halfBytes e.originalTag) d.chain
            holder := .egress
            refCount := 1 }).appendEgress e.port n).countMgmt .replies

/-- A reply that matches no entry is late (R172). -/
def State.lateReply (s : State) (n : Nat) (tag : Half) : State :=
  ((s.releaseRx n).countMgmt .lateReplies).offerEvent .lateReply .none none tag

/-- A reply taken from the trunk (R172). -/
def State.peerReply (s : State) (n : Nat) (bs : List Byte) : State :=
  match s.agent.peers.find? (matchesPeer (halfAt bs 0) (byteAt bs 3)) with
  | none => s.lateReply n (halfAt bs 0)
  | some e => s.relayReply n e

/-- A complete stream-65535 frame passed to the Agent (R116, R121, R156). -/
def State.trunkPayload (s : State) (n : Nat) (bs : List Byte) : State :=
  match classifyPayload true s.agent.requests.length bs with
  | .dropped r => (s.releaseRx n).dropPayload .none r
  | .peerReply => s.peerReply n bs
  | .request => (s.acceptRequest (.trunk s.link.generation) bs).releaseRx n

end Sys2Proof.Machine
end

