-- ==== Sys2Proof/Machine/Delivery.lean ====
section
/-! DEFINITION. The Delivery Unit, and the Station Port Transmitters' start and completion of frames. -/

namespace Sys2Proof.Machine

/-! ### Delivery of a completed frame (R121 to R123) -/

/-- The valid Delivery Table entry of a stream number (R122). -/
def Bank.deliveryFor (b : Bank) (stream : Half) : Option DeliveryEntry :=
  (b.deliveries.find? fun e => decide (e.2.stream = stream)).map (·.2)

/-- The port set of a user frame (R122). -/
def Bank.portSet (b : Bank) (stream : Half) : Four Bool :=
  match b.deliveryFor stream with
  | none => b.part.unknownMask
  | some e => e.portMask

/-- The output stream number of a user frame (R122). -/
def Bank.outputStream (b : Bank) (stream : Half) : Half :=
  match b.deliveryFor stream with
  | none => stream
  | some e => e.egressStream.getD stream

/-- Whether a port accepts a frame of some cells (R123). -/
def State.portAccepts (s : State) (p : Port) (cells : Nat) : Bool :=
  (s.config.active.ports.get p).enabled && decide (s.egressCells p + cells ≤ (s.config.active.ports.get p).egressLimit)

/-- The offer to one port (R123). -/
def State.offerTo (n cells : Nat) (s : State) (p : Port) : State :=
  if s.portAccepts p cells then
    (s.mapRxPool fun r => r.mapDesc n fun d => { d with refCount := d.refCount + 1 }).appendEgress p n
  else s.countPort p .egressDrops

/-- The frame after all offers: held for egress, or released when no port took it (R116, R123). -/
def State.afterOffers (s : State) (n : Nat) : State :=
  match s.rxPool.desc n with
  | none => s
  | some d =>
    if d.refCount = 0 then s.releaseRx n
    else s.mapRxPool fun r => r.mapDesc n fun d => { d with holder := .egress }

/-- Delivery of a user frame (R122, R123). -/
def State.deliverUser (s : State) (n : Nat) (d : RxDescriptor) : State :=
  let s1 := s.mapRxPool fun r =>
    r.mapDesc n fun d => { d with stream := s.config.active.outputStream d.stream, holder := .delivery, refCount := 0 }
  ((fourIndices.filter fun p => (s.config.active.portSet d.stream).get p).foldl (State.offerTo n d.chain.length) s1).afterOffers n

/-- The payload of a complete frame. -/
def RxDescriptor.payload (d : RxDescriptor) : List Byte := chainBytes d.chain

/-- Delivery, one event at the completion of a frame (R121). -/
def State.deliver (s : State) (n : Nat) : State :=
  match s.rxPool.desc n with
  | none => s
  | some d =>
    if d.stream = Config.mgmtStream then
      (s.mapRxPool fun r => r.mapDesc n fun d => { d with holder := .agent }).trunkPayload n d.payload
    else s.deliverUser n d

/-- Hand-off of a complete frame by the Reassembler (R60). -/
def State.handOff (s : State) (l : Level) (n : Nat) : State := (s.countLevel l .framesDelivered).deliver n

/-! ### Station Port Transmitters (R127, R129) -/

/-- The head frame starts: an IDLE transmitter with a non-empty queue becomes SENDING (R127). -/
def EgressPort.startHead (e : EgressPort) : EgressPort :=
  if e.queue.isEmpty then e else { e with state := .sending }

/-- The head frame leaves its queue at its completion; the transmitter is IDLE for a byte time (R129). -/
def EgressPort.complete (e : EgressPort) : EgressPort := { queue := e.queue.tail, state := .idleGap }

/-- The reference count falls by 1, and the frame is released when it reaches 0 (R116, R129). -/
def State.lowerRef (s : State) (n : Nat) : State :=
  match s.rxPool.desc n with
  | none => s
  | some d =>
    if d.refCount ≤ 1 then s.releaseRx n
    else s.mapRxPool fun r => r.mapDesc n fun d => { d with refCount := d.refCount - 1 }

/-- Steps 1 to 3 of a completion at a port (R129). -/
def State.frameOut (s : State) (p : Port) (n : Nat) : State :=
  ((s.countPort p .framesOut).mapEgress fun q => q.set p (q.get p).complete).lowerRef n

end Sys2Proof.Machine
end

