-- ==== Sys2Proof/Machine/Reassembler.lean ====
section
/-! DEFINITION. The Reassembler: the loss and stale check, the rules for START, WHOLE, MIDDLE and END, aborts, and the
teardown at a DOWN event. -/

namespace Sys2Proof.Machine

/-! ### Aborts (R56) -/

/-- Returns what an aborted entry still holds. -/
def State.returnEntry (s : State) (e : RxEntry) : State :=
  match e.descriptor with
  | none => s
  | some n => s.releaseRx n

/-- Counts and records one abort, or the drop of a WHOLE (R51, R56). -/
def State.recordAbort (s : State) (l : Level) (stream : Half) (r : AbortReason) : State :=
  (s.countLevel l (.aborts r)).offerEvent .rxAbort (.level l) (some stream) (BitVec.ofNat 16 r.code)

/-- Aborts an entry already taken off the stack, with its first reason or else the rule's (R56). -/
def State.abortEntry (r : AbortReason) (s : State) (e : RxEntry) : State :=
  (s.returnEntry e).recordAbort e.level e.stream (e.reportedReason r)

def State.setRxStack (s : State) (stack : List RxEntry) : State := s.mapReasm fun a => { a with stack := stack }

/-- Aborts every open frame that a rule names, from the top downward (R50 to R53). -/
def State.abortWhere (s : State) (named : RxEntry → Bool) (r : AbortReason) : State :=
  (s.reasm.stack.filter named).foldl (State.abortEntry r) (s.setRxStack (s.reasm.stack.filter fun e => !named e))

/-- Aborts the frame open at a level (R53, R59). -/
def State.abortAt (s : State) (l : Level) (r : AbortReason) : State :=
  s.abortWhere (fun e => decide (e.level = l)) r

/-- Aborts each open frame at a level or above it (R50, R51). -/
def State.abortAtOrAbove (s : State) (l : Level) : State := s.abortWhere (fun e => decide (l ≤ e.level)) .lostEnd

/-- Aborts each open frame above a level (R52). -/
def State.abortAbove (s : State) (l : Level) : State := s.abortWhere (fun e => decide (l < e.level)) .lostEnd

/-! ### Claims (R48, R49, R113, R118) -/

/-- A segment beyond its level's allotment (R49). -/
def State.creditViolation (s : State) (l : Level) (stream seq : Half) : State :=
  (s.countLevel l .creditViolations).offerEvent .creditViolation (.level l) (some stream) seq

/-- Level L's held cells are below its allotment (R49). -/
def State.withinAllotment (s : State) (l : Level) : Bool := decide (s.heldCells l < s.link.allotment.get l)

/-- The failure of a cell claim, told apart: beyond the allotment, or a shortage of the pool (R49, R113). -/
def State.cellRefused (s : State) (l : Level) (stream seq : Half) : State :=
  if s.withinAllotment l then s.rxClaimFailed l stream 2 else s.creditViolation l stream seq

/-- Stores a segment's payload under a descriptor, when the allotment and the pool allow it (R49). -/
def State.storeCell (s : State) (l : Level) (n : Nat) (bytes : List Byte) : Option State :=
  if s.withinAllotment l then (s.rxPool.storeCell l n bytes).map fun p => s.mapRxPool fun _ => p else none

/-! ### START and WHOLE (R48, R50, R51, R57) -/

/-- The entry a START pushes. -/
def State.newEntry (s : State) (d : RxData) (descriptor : Option Nat) (discarding : Option AbortReason) : RxEntry :=
  { level := d.level, tag := d.tag, stream := d.stream, declaredLength := d.length, bytesReceived := 64
    segmentsReceived := 1, descriptor := descriptor, discarding := discarding
    ageDeadline := some (timeAfter s.now (1000 * (s.config.active.levels.get d.level).rxAgeLimit)) }

def State.pushRx (s : State) (e : RxEntry) : State := s.mapReasm fun a => { a with stack := e :: a.stack }

/-- A START, after the aborts: the entry is pushed, then a descriptor and a cell are claimed (R48, R50). -/
def State.startFrame (s : State) (d : RxData) : State :=
  match s.rxPool.claimLevelDesc d.level d.stream d.length with
  | none => (s.pushRx (s.newEntry d none (some .noDescriptor))).rxClaimFailed d.level d.stream 1
  | some (n, pool) =>
    let s1 := s.mapRxPool fun _ => pool
    match s1.storeCell d.level n d.payload with
    | none => (s1.pushRx (s1.newEntry d (some n) (some .credit))).cellRefused d.level d.stream d.seq
    | some s2 => s2.pushRx (s2.newEntry d (some n) none)

/-- A WHOLE, after the aborts: it is stored and handed on, or dropped (R51). A descriptor that finds no cell leaves the
pool as it was (R113, log 23). -/
def State.wholeFrame (s : State) (d : RxData) : State :=
  match s.rxPool.claimLevelDesc d.level d.stream d.length with
  | none => (s.rxClaimFailed d.level d.stream 1).recordAbort d.level d.stream .noDescriptor
  | some (n, pool) =>
    match (s.mapRxPool fun _ => pool).storeCell d.level n d.payload with
    | none => (s.cellRefused d.level d.stream d.seq).recordAbort d.level d.stream .credit
    | some s2 => s2.handOff d.level n

/-! ### MIDDLE and END (R52 to R54, R58, R59) -/

def State.orphan (s : State) (l : Level) : State := s.countLevel l .orphans

/-- The frame open at a level. -/
def State.openAt (s : State) (l : Level) : Option RxEntry := s.reasm.stack.find? fun e => decide (e.level = l)

/-- A segment's payload would pass the declared length or the 24 segments (R58, R59). -/
def RxEntry.wouldOverrun (e : RxEntry) (p : Nat) : Bool :=
  decide (e.declaredLength < e.bytesReceived + p) || decide (24 < e.segmentsReceived + 1)

/-- The open frame at a level takes one stored segment (R58, R59). -/
def State.advanceEntry (s : State) (l : Level) (p : Nat) : State :=
  s.mapReasm fun a =>
    { a with
      stack := a.stack.map fun e =>
        if e.level = l then
          { e with bytesReceived := e.bytesReceived + p, segmentsReceived := e.segmentsReceived + 1 }
        else e }

/-- Stores a MIDDLE's or END's payload, or marks the frame discarding and says it did not store (R58, R59). -/
def State.storeSegment (s : State) (e : RxEntry) (d : RxData) : State × Bool :=
  if e.wouldOverrun d.payload.length then (s.markDiscarding d.level .overlong, false)
  else
    match e.descriptor.bind fun n => s.storeCell d.level n d.payload with
    | none => ((s.cellRefused d.level e.stream d.seq).markDiscarding d.level .credit, false)
    | some s' => (s'.advanceEntry d.level d.payload.length, true)

/-- A complete frame leaves the stack and is handed on (R59, R60). -/
def State.completeFrame (s : State) (e : RxEntry) : State :=
  let s' := s.setRxStack (s.reasm.stack.filter fun x => !decide (x.level = e.level))
  match e.descriptor with
  | none => s'
  | some n => s'.handOff e.level n

/-- A MIDDLE or END whose tag matches the open frame (R53, R58, R59). -/
def State.matchedSegment (s : State) (e : RxEntry) (d : RxData) : State :=
  let last := d.kind.closes
  match e.discarding with
  | some r => if last then s.abortAt d.level r else s
  | none =>
    match s.storeSegment e d with
    | (s', false) => if last then s'.abortAt d.level .lengthMismatch else s'
    | (s', true) =>
      if last then
        if e.bytesReceived + d.payload.length = e.declaredLength then s'.completeFrame e
        else s'.abortAt d.level .lengthMismatch
      else s'

/-- A MIDDLE or END is placed against the stack (R52 to R54). -/
def State.continueFrame (s : State) (d : RxData) : State :=
  match s.openAt d.level with
  | none => s.orphan d.level
  | some e =>
    let s' := s.abortAbove d.level
    if e.tag = d.tag then s'.matchedSegment e d else (s'.abortAt d.level .tagMismatch).orphan d.level

/-! ### The loss and stale check (R45 to R47) -/

/-- The rule of the segment's kind. -/
def State.kindRule (s : State) (d : RxData) : State :=
  match d.kind with
  | .start => (s.abortAtOrAbove d.level).startFrame d
  | .whole => (s.abortAtOrAbove d.level).wholeFrame d
  | .middle => s.continueFrame d
  | .end_ => s.continueFrame d

/-- e(L) becomes s + 1 (R45). -/
def State.expectNext (s : State) (l : Level) (seq : Half) : State :=
  s.mapReasm fun a => { a with expected := a.expected.map fun e => e.set l (seq + 1#16) }

/-- A data segment that reaches the Reassembler, taken whole (R44, R45). -/
def State.reassemble (s : State) (d : RxData) : State :=
  let gap := (d.seq - s.expectedAt d.level).toNat
  if gap = 0 then (s.expectNext d.level d.seq).kindRule d
  else if gap ≤ 32767 then ((s.markDiscarding d.level .lostSegment).expectNext d.level d.seq).kindRule d
  else s.countLevel d.level .stale

/-! ### Teardown (R62) -/

/-- Every open frame is aborted, top first; the next-expected numbers are forgotten (R62). -/
def State.rxTeardown (s : State) : State :=
  (s.abortWhere (fun _ => true) .linkLoss).mapReasm fun a => { a with expected := none }

end Sys2Proof.Machine
end

