-- ==== Sys2Proof/Machine/Link.lean ====
section
/-! DEFINITION. The Link Controller: hold-off, handshake, entry to UP, the DOWN event, and what becomes of each segment
that the Trunk Receiver reports. -/

namespace Sys2Proof.Machine

/-! ### Hold-off and HELLO (R71, R73) -/

/-- A hold-off started now. -/
def State.holdOffFromNow (s : State) : Option Time := some (timeAfter s.now Config.holdOffTime)

/-- Starts the hold-off if the line signal is present (R71). -/
def State.startHoldOff (s : State) : State :=
  if s.link.signal then s.mapLink fun k => { k with holdOff := s.holdOffFromNow } else s

/-- Builds and places a HELLO with the values as they stand (R73). -/
def State.placeHello (s : State) : State := s.placeSegment (.hello s.link.heard (Four.make s.initialLimit))

/-- Entering HELLO (R73). -/
def State.enterHello (s : State) : State :=
  (s.mapLink fun k =>
    { k with
      state := .hello
      holdOff := none
      heard := false
      helloDeadline := some (timeAfter s.now Config.helloInterval) }).placeHello

/-! ### Entry to UP (R76) -/

/-- A HELLO still in the latch is removed; one in flight completes (R76). -/
def TrunkTx.removeLatchedHello (t : TrunkTx) : TrunkTx :=
  match t.latch with
  | some (.hello _ _) => { t with latch := none }
  | some (.data _) => t
  | some (.control _) => t
  | none => t

/-- The last-advertised limits at the entry: those of the most recent HELLO that started (R76). -/
def TrunkTx.helloLimits (t : TrunkTx) : Four (Option Half) :=
  match t.lastHello with
  | none => Four.all none
  | some q => Four.make fun l => some (q.get l)

/-- The Link Controller at the entry to UP, before the comparison of limits (R76, R83). -/
def State.upController (s : State) : LinkController :=
  { s.link with
    state := .up
    generation := s.link.generation + 1#16
    allotment := Four.make fun l => (s.config.active.levels.get l).rxAllotment
    lastAdvertised := s.trunkTx.helloLimits
    advanceTime := Four.all none
    advanceDeadline := Four.all none
    controlDue := false
    errorBudget := 0
    goodRun := 0
    silenceDeadline := some (timeAfter s.now Config.silenceTime)
    keepaliveDeadline := some (timeAfter s.now Config.keepaliveTime)
    helloDeadline := none }

/-- Entering UP, without the selection it triggers (R4, R5, R44, R76). -/
def State.enterUp (s : State) : State :=
  let s1 := s.mapLink fun _ => s.upController
  let s2 := s1.mapSched fun k => { k with nextTag := Four.all 0#8, nextSeq := Four.all 0#16 }
  let s3 := (s2.mapReasm fun a => { a with expected := some (Four.all 0#16) }).mapTrunkTx (·.removeLatchedHello)
  let s4 := fourIndices.foldl State.reportLevel s3
  s4.offerEvent .linkUp .none none s4.link.generation

/-! ### The DOWN event (R79, R80) -/

/-- The Link Controller's own part (R79). The hold-off starts when signal is present and held is no (R71). -/
def State.downController (s : State) (cause : LinkCause) : LinkController :=
  { s.link with
    state := .down
    lastCause := cause
    holdOff := if s.link.signal && !s.link.held then s.holdOffFromNow else none
    heard := false
    helloDeadline := none
    silenceDeadline := none
    keepaliveDeadline := none
    txCredit := Four.all none
    lastAdvertised := Four.all none
    advanceTime := Four.all none
    advanceDeadline := Four.all none
    controlDue := false }

/-- A DOWN event whose cause is not RESTART: the Link Controller, the answers to pending peers, and then the records in
the order of R80 (log 21). A link that is DOWN is not taken down again (R81). -/
def State.linkDown (s : State) (cause : LinkCause) : State :=
  if s.link.state = .down then s
  else
    let s1 := (s.mapLink fun _ => s.downController cause).countTrunk (.linkDowns cause)
    let s2 := s1.answerPeersDown.offerEvent .linkDown .none none (BitVec.ofNat 16 cause.code)
    s2.rxTeardown.txTeardown

/-! ### LINK CONTROL (R72) -/

def State.linkDrop (s : State) : State :=
  if s.link.state = .down then
    if s.link.held = false ∧ s.link.signal = true then
      s.mapLink fun k => { k with holdOff := k.holdOff.bind fun _ => s.holdOffFromNow }
    else s
  else s.linkDown .admin

def State.linkHold (s : State) : State :=
  let s' := s.mapLink fun k => { k with held := true }
  if s.link.state = .down then s'.mapLink fun k => { k with holdOff := none } else s'.linkDown .admin

def State.linkRelease (s : State) : State :=
  if s.link.state = .down ∧ s.link.held = true then (s.mapLink fun k => { k with held := false }).startHoldOff else s

def State.linkAction (s : State) : LinkAction → State
  | .drop => s.linkDrop
  | .hold => s.linkHold
  | .release => s.linkRelease

/-! ### Error budget and silence while UP (R77, R78) -/

/-- A good segment while UP: the silence deadline moves, the good run rises, and 16 in a row take one off the budget. -/
def LinkController.noteGood (k : LinkController) (now : Time) : LinkController :=
  { k with
    silenceDeadline := some (timeAfter now Config.silenceTime)
    goodRun := if k.goodRun + 1 = Config.goodRunLength then 0 else k.goodRun + 1
    errorBudget := if k.goodRun + 1 = Config.goodRunLength then k.errorBudget - 1 else k.errorBudget }

/-- A bad segment while UP, before the budget is judged (R78). -/
def LinkController.noteBad (k : LinkController) : LinkController :=
  { k with errorBudget := k.errorBudget + 1, goodRun := 0 }

/-! ### Credit from the peer (R74, R88) -/

/-- One level of an arriving CONTROL: a limit that is ahead replaces the record's (R88). -/
def acceptLimit (record : Option Half) (limit : Half) : Option Half :=
  match record with
  | none => none
  | some r => if seqAhead limit r then some limit else some r

/-- The TX Credit Record after an arriving CONTROL, the four levels taken separately (R88). -/
def acceptLimits (record : Four (Option Half)) (limits : Four Half) : Four (Option Half) :=
  Four.make fun l => acceptLimit (record.get l) (limits.get l)

/-- A CONTROL taken while UP; an accepted advance is a selection trigger (R29, R88, log 16). -/
def State.controlLimits (s : State) (limits : Four Half) : State :=
  let record := acceptLimits s.link.txCredit limits
  if record = s.link.txCredit then s else (s.mapLink fun k => { k with txCredit := record }).selectionTrigger

/-- A HELLO's limits are stored outright and heard becomes yes (R74). -/
def State.storeHello (s : State) (limits : Four Half) : State :=
  s.mapLink fun k => { k with txCredit := Four.make fun l => some (limits.get l), heard := true }

/-! ### Segments by link state (R70, R74, R75) -/

/-- A data segment or CONTROL taken while UP (R70). -/
def State.takeUp (s : State) : GoodSegment → State
  | .data d => creditReport s (s.reassemble d)
  | .control limits => s.controlLimits limits
  | .hello _ _ => s

/-- The entry to UP at a HELLO with heard-you 1: the good run is 0, and no segment is left to take (R74, R76). -/
def State.enterUpAtHello (s : State) : State := s.enterUp.selectionTrigger

/-- Whether the data segment or CONTROL that brought the link up, taken as in UP, counts in the good run is not stated (R75,
R78, log 18). -/
def State.countEntrySegment (s : State) : State :=
  (if Config.entrySegmentCounts s.freeCount then s.mapLink fun k => { k with goodRun := 1 } else s).useFree

/-- The entry to UP at a data segment or CONTROL; the selection it calls for is taken before or after the segment (R75,
R76, log 17). -/
def State.enterUpWith (s : State) (g : GoodSegment) : State :=
  let s1 := s.enterUp.countEntrySegment
  if Config.selectBeforeSegment s1.freeCount then (s1.useFree.selectionTrigger).takeUp g
  else (s1.useFree.takeUp g).selectionTrigger

/-- A good segment arriving in HELLO (R70, R74, R75). -/
def State.goodInHello (s : State) (g : GoodSegment) : State :=
  match g with
  | .hello heardYou limits => if heardYou then (s.storeHello limits).enterUpAtHello else s.storeHello limits
  | .data _ => if s.link.heard then s.enterUpWith g else s
  | .control _ => if s.link.heard then s.enterUpWith g else s

/-- A good segment arriving in UP; a HELLO that has not heard this part takes the link down (R70, R74, R77, R78). -/
def State.goodInUp (s : State) (g : GoodSegment) : State :=
  let s1 := s.mapLink (·.noteGood s.now)
  match g with
  | .hello heardYou _ => if heardYou then s1 else s1.linkDown .peerRestart
  | .data d => s1.takeUp (.data d)
  | .control limits => s1.takeUp (.control limits)

/-- A good segment reported by the Trunk Receiver: its counts, then what the link state makes of it (R9, R70). -/
def State.goodSegment (s : State) (g : GoodSegment) : State :=
  let s1 := s.countTrunk .segmentsReceived
  let s2 := match g with
    | .control _ => s1.countTrunk .controlReceived
    | .data _ => s1
    | .hello _ _ => s1
  match s2.link.state with
  | .down => s2
  | .hello => s2.goodInHello g
  | .up => s2.goodInUp g

/-- A bad segment reported by the Trunk Receiver: its count, and the error budget while UP (R9, R78). -/
def State.badSegment (s : State) : State :=
  let s1 := s.countTrunk .crcMalformed
  if s1.link.state = .up then
    let s2 := s1.mapLink (·.noteBad)
    if Config.errorLimit ≤ s2.link.errorBudget then s2.linkDown .errorRate else s2
  else s1

end Sys2Proof.Machine
end

