-- ==== Sys2Proof/Machine/Restart.lean ====
section
/-! DEFINITION. The three kinds of restart, the deferred command, and the DOWN event with the deferral it may release.
 -/

namespace Sys2Proof.Machine

/-- Codes of the restart causes (R179). -/
def RestartCause.code : RestartCause → Nat
  | .powerUp => 1
  | .resetPin => 2
  | .fullRestart => 3
  | .trafficRestart => 4

/-- The RESTART record of a restart (R179). -/
def State.offerRestart (s : State) : State :=
  s.offerEvent .restart .none none (BitVec.ofNat 16 s.time.lastCause.code)

/-- The egress side at a command restart: queues emptied, a frame in transmission cut off (R132). -/
def EgressPort.cutOff (e : EgressPort) : EgressPort :=
  { queue := [], state := match e.state with | .idle => .idle | .idleGap => .idleGap | .sending => .idleGap }

def cutOffAll (q : Four EgressPort) : Four EgressPort := Four.make fun p => (q.get p).cutOff

/-! ### Cold start and FULL restart -/

/-- Every block in its cold-start state with the hold-off running when the signal is present, and the RESTART record
accepted (R42, R64, R90, R99, R109, R120, R133, R154, R177, R188). What the lines still carry of the time before is
given: the Trunk Transmitter and the Station Port Transmitters (R12, R132). -/
def State.restarted (pins : Pins) (signal : Bool) (cause : RestartCause) (trunkTx : TrunkTx) (egress : Four EgressPort)
    (freeCount : Nat) (pending : List Instr) : State :=
  (((State.cold pins signal cause freeCount pending).mapTrunkTx fun _ => trunkTx).mapEgress
    fun _ => egress).startHoldOff.offerRestart

/-- POWER_UP when the supply has been below its level since the pin was last released (R187). -/
def State.coldCause (s : State) : RestartCause := if s.pins.supplyLow then .powerUp else .resetPin

/-- The release of the reset pin (R179). -/
def State.coldStart (s : State) : State :=
  State.restarted { s.pins with resetHeld := false, supplyLow := false } s.link.signal s.coldCause
    TrunkTx.cold (Four.all { queue := [], state := .idle }) s.freeCount s.pending

/-- RESTART FULL (R176). -/
def State.restartFull (s : State) : State :=
  State.restarted s.pins s.link.signal .fullRestart s.trunkTx.restart (cutOffAll s.egress) s.freeCount s.pending

/-! ### TRAFFIC restart (R176) -/

/-- The Link Controller after a TRAFFIC restart, which keeps the link generation (R90). -/
def State.trafficController (s : State) : LinkController :=
  { LinkController.cold s.link.signal with
    generation := s.link.generation
    holdOff := if s.link.signal then s.holdOffFromNow else none }

/-- The blocks that hold traffic are emptied without counts; configuration, counters, events and the request queue stay
(R41, R42, R63, R64, R99, R120, R132, R177). -/
def State.clearTraffic (s : State) : State :=
  ((((((((((s.mapSprs fun _ => Four.make fun p => Spr.afterRestart (s.pins.frameValid.get p)).mapTxPool
                      fun _ => TxPool.cold).mapSched fun _ => Scheduler.cold).mapTrunkTx (·.restart)).mapReception
                fun _ => none).mapLink fun _ => s.trafficController).mapReasm fun _ => Reassembler.cold).mapRxPool
          fun _ => RxPool.cold).mapEgress cutOffAll).mapAgent fun a => { a with mode := .ready, peers := [] })

/-- The restart-cause record at a TRAFFIC restart (R187). -/
def TimeBlock.trafficRestart (t : TimeBlock) : TimeBlock :=
  { t with lastCause := .trafficRestart, lastTrafficTime := t.timeBase, trafficRestarts := t.trafficRestarts + 1#32 }

/-- RESTART TRAFFIC: a DOWN event with cause RESTART when the link was HELLO or UP (R79, R90); pending peers are
answered once the pools are free (R176). -/
def State.restartTraffic (s : State) : State :=
  let s1 := if s.link.state = .down then s else s.countTrunk (.linkDowns .restart)
  let s2 := s1.clearTraffic.mapTime (·.trafficRestart)
  (s.agent.peers.foldl (State.answerPeer .linkDown) s2).offerRestart

def State.restart (s : State) : RestartKind → State
  | .traffic => s.restartTraffic
  | .full => s.restartFull

/-! ### Deferred commands (R168, R169) -/

/-- The command takes effect; the mode becomes READY (R169). -/
def State.applyCommand (s : State) (c : DeferredCommand) : State :=
  let s' := s.mapAgent fun a => { a with mode := .ready }
  match c with
  | .linkControl a => s'.linkAction a
  | .restart k => s'.restart k

/-- The completion of a reply releases the command that awaits it (R169). -/
def State.replyLeft (s : State) (left : AwaitedReply) : State :=
  match s.agent.mode with
  | .ready => s
  | .deferring c awaited => if awaited = left then s.applyCommand c else s

/-- A command deferred on a trunk reply takes effect at a DOWN event, after the Link Controller has entered DOWN (R169). -/
def State.commandOnDown (s : State) : State :=
  match s.agent.mode with
  | .ready => s
  | .deferring _ (.station _ _) => s
  | .deferring c (.trunk _) => s.applyCommand c

/-- The end of an event that may have held a DOWN event. -/
def releaseIfDown (before s : State) : State :=
  if before.link.state ≠ .down ∧ s.link.state = .down then s.commandOnDown else s

/-- A command deferred at its execution when its reply was placed, or taken at once (R168). -/
def State.deferOrApply (s : State) (c : DeferredCommand) : Option AwaitedReply → State
  | none => s.applyCommand c
  | some awaited => s.mapAgent fun a => { a with mode := .deferring c awaited }

end Sys2Proof.Machine
end

