-- ==== Sys2Proof/Machine/Store.lean ====
section
/-! DEFINITION. The Configuration Store: WRITE ENTRY, CLEAR SHADOW, COMMIT and the copy-back completion. -/

namespace Sys2Proof.Machine

/-! ### WRITE ENTRY (R141, R142) -/

/-- No other valid entry has the same match port and stream number (R142). -/
def streamKeyFree (m : List (Nat × StreamEntry)) (i : Nat) (e : StreamEntry) : Bool :=
  m.all fun x => decide (x.1 = i) || !(decide (x.2.matchPort = e.matchPort) && decide (x.2.stream = e.stream))

/-- No other valid entry has the same stream number (R142). -/
def deliveryKeyFree (m : List (Nat × DeliveryEntry)) (i : Nat) (e : DeliveryEntry) : Bool :=
  m.all fun x => decide (x.1 = i) || !decide (x.2.stream = e.stream)

/-- Checks 3 to 5 for the Stream Table. -/
def Bank.writeStream (b : Bank) (i : Nat) (content : List Byte) : Status × Bank :=
  if validBit content then
    match readStreamEntry content with
    | none => (.invalid, b)
    | some e =>
      if streamKeyFree b.streams i e then (.ok, { b with streams := sparseInsert i e b.streams }) else (.duplicate, b)
  else (.ok, { b with streams := sparseErase i b.streams })

/-- Checks 3 to 5 for the Delivery Table. -/
def Bank.writeDelivery (b : Bank) (i : Nat) (content : List Byte) : Status × Bank :=
  if validBit content then
    match readDeliveryEntry content with
    | none => (.invalid, b)
    | some e =>
      if deliveryKeyFree b.deliveries i e then (.ok, { b with deliveries := sparseInsert i e b.deliveries })
      else (.duplicate, b)
  else (.ok, { b with deliveries := sparseErase i b.deliveries })

/-- Checks 3 to 5 and the write, by table. -/
def Bank.write (b : Bank) (t : Table) (i : Nat) (content : List Byte) : Status × Bank :=
  match t with
  | .streams => b.writeStream i content
  | .deliveries => b.writeDelivery i content
  | .levels =>
    match readLevelEntry content with
    | none => (.invalid, b)
    | some e => (.ok, { b with levels := b.levels.set (Fin.ofNat 4 i) e })
  | .ports =>
    match readPortSettings content with
    | none => (.invalid, b)
    | some e => (.ok, { b with ports := b.ports.set (Fin.ofNat 4 i) e })
  | .part =>
    match readPartSettings content with
    | none => (.invalid, b)
    | some e => (.ok, { b with part := e })

/-- WRITE ENTRY at the Store; the first check that fails decides (R141). -/
def ConfigStore.write (c : ConfigStore) (tableCode : Byte) (i : Nat) (content : List Byte) : Status × ConfigStore :=
  if c.copyBack.isSome then (.busy, c)
  else
    match tableOfCode tableCode with
    | none => (.range, c)
    | some t =>
      if i < t.size then ((c.shadow.write t i content).1, { c with shadow := (c.shadow.write t i content).2 })
      else (.range, c)

/-! ### CLEAR SHADOW (R144) -/

/-- One table, or all for code 0, at the defaults; none for any other code. -/
def Bank.clearTable (b : Bank) (tableCode : Byte) : Option Bank :=
  if tableCode = 0#8 then some Bank.default
  else
    match tableOfCode tableCode with
    | none => none
    | some .streams => some { b with streams := Bank.default.streams }
    | some .deliveries => some { b with deliveries := Bank.default.deliveries }
    | some .levels => some { b with levels := Bank.default.levels }
    | some .ports => some { b with ports := Bank.default.ports }
    | some .part => some { b with part := Bank.default.part }

def ConfigStore.clear (c : ConfigStore) (tableCode : Byte) : Status × ConfigStore :=
  if c.copyBack.isSome then (.busy, c)
  else
    match c.shadow.clearTable tableCode with
    | none => (.range, c)
    | some b => (.ok, { c with shadow := b })

/-! ### COMMIT and copy-back (R145, R146, R148) -/

/-- The rx allotments of a bank together. -/
def Bank.allotmentSum (b : Bank) : Nat := (fourIndices.map fun l => (b.levels.get l).rxAllotment).sum

/-- The generation after one more COMMIT: from 65534 to 0 (R146). -/
def nextGeneration (g : Half) : Half := if g = 65534#16 then 0#16 else g + 1#16

/-- The swap (R146). -/
def ConfigStore.swap (c : ConfigStore) (now : Time) : ConfigStore :=
  { active := c.shadow, shadow := c.active, generation := nextGeneration c.generation, copyBack := some now }

/-- COMMIT; 65535 as the expected generation asks for no check (R145). -/
def ConfigStore.commit (c : ConfigStore) (expected : Half) (now : Time) : Status × ConfigStore :=
  if c.copyBack.isSome then (.busy, c)
  else if expected ≠ 65535#16 ∧ expected ≠ c.generation then (.generation, c)
  else if Config.allotmentTotal < c.shadow.allotmentSum then (.invalid, c)
  else (.ok, c.swap now)

/-- The copy-back completion at the Store (R148). -/
def ConfigStore.copyDone (c : ConfigStore) : ConfigStore := { c with shadow := c.active, copyBack := none }

end Sys2Proof.Machine
end

