-- ==== Sys2Proof/Machine/Requests.lean ====
section
/-! DEFINITION. The execution of management requests: the row of R158 that applies, each command's effect and results,
and the forwarding of a request to the peer. -/

namespace Sys2Proof.Machine

/-- What carrying out a command gives: the status, the results and the state before the reply. -/
structure Answer where
  status : Status
  results : List Byte
  state : State
  deriving DecidableEq, Repr

/-- A refusal changes nothing and carries no results. -/
def Answer.refusal (status : Status) (s : State) : Answer := { status := status, results := [], state := s }

def natByte (n : Nat) : Byte := BitVec.ofNat 8 n

/-! ### STATUS (R161) -/

def LinkState.code : LinkState → Nat
  | .down => 0
  | .hello => 1
  | .up => 2

/-- Head wait of a Level Queue: the Time Base less the head's admission time; 0 for an empty queue. -/
def State.headWait (s : State) (l : Level) : Time :=
  match s.sched.queues.get l with
  | [] => 0#32
  | d :: _ => s.now - d.admissionTime

/-- The STATUS block (R161, R191). -/
def State.statusBlock (s : State) : List Byte :=
  halfBytes Config.vendorCode ++ halfBytes Config.partCode ++
    [Config.revision, natByte s.time.lastCause.code] ++ wordBytes s.time.lastTrafficTime ++
    wordBytes s.time.trafficRestarts ++ [natByte s.link.state.code] ++ halfBytes s.link.generation ++
    [natByte s.link.lastCause.code] ++ halfBytes s.config.generation ++ [flagBit s.config.copyBack.isSome 0] ++
    (fourIndices.flatMap fun l => natHalf (s.levelQueueCells l)) ++
    (fourIndices.flatMap fun l => wordBytes (s.headWait l)) ++
    [natByte s.sched.stack.length, natByte s.reasm.stack.length] ++ natHalf s.txPool.freeCells.length ++
    [natByte s.txPool.freeDescs.length] ++ natHalf s.rxPool.levelPart.freeCells.length ++
    [natByte s.rxPool.levelPart.freeDescs.length, natByte s.rxPool.reserve.freeCells.length,
      natByte s.rxPool.reserve.freeDescs.length, natByte s.events.records.length]

def State.carryStatus (s : State) : Answer := { status := .ok, results := s.statusBlock, state := s }

/-! ### READ ENTRIES (R162) -/

/-- The bank a code names. -/
def ConfigStore.bankOf (c : ConfigStore) (code : Byte) : Option Bank :=
  match code.toNat with
  | 0 => some c.active
  | 1 => some c.shadow
  | _ => none

/-- Indices returned: from the first, up to the count, not past the table's last. -/
def readIndices (t : Table) (first count : Nat) : List Nat := List.range' first (min count (t.size - first))

def readEntriesOf (b : Bank) (t : Table) (args : List Byte) (s : State) : Answer :=
  let first := (halfAt args 2).toNat
  let count := (byteAt args 4).toNat
  if 1 ≤ count ∧ count ≤ 16 ∧ first < t.size then
    let indices := readIndices t first count
    { status := .ok
      results := args.take 4 ++ [natByte indices.length] ++ indices.flatMap fun i => b.entryBytes t i
      state := s }
  else Answer.refusal .range s

def State.carryReadEntries (s : State) (args : List Byte) : Answer :=
  match tableOfCode (byteAt args 0), s.config.bankOf (byteAt args 1) with
  | some t, some b =>
    if byteAt args 1 = 1#8 ∧ s.config.copyBack.isSome = true then Answer.refusal .busy s else readEntriesOf b t args s
  | _, _ => Answer.refusal .range s

/-! ### WRITE ENTRY, CLEAR SHADOW, COMMIT (R163) -/

def State.carryWriteEntry (s : State) (args : List Byte) : Answer :=
  let r := s.config.write (byteAt args 0) (halfAt args 1).toNat (args.drop 3)
  { status := r.1, results := [], state := s.mapConfig fun _ => r.2 }

def State.carryClearShadow (s : State) (args : List Byte) : Answer :=
  let r := s.config.clear (byteAt args 0)
  { status := r.1, results := [], state := s.mapConfig fun _ => r.2 }

/-- OK and GENERATION carry the generation as it then stands (R163). The reply is built on the state after the swap, so
a trunk reply takes its management level, the selection that its admission triggers the Level Table, and a POOL_EXHAUSTED
notice of this event its settings, from the new bank: the model's choice beside R150 (log 33). -/
def State.carryCommit (s : State) (args : List Byte) : Answer :=
  let r := s.config.commit (halfAt args 0) s.now
  { status := r.1
    results := if r.1 = .ok ∨ r.1 = .generation then halfBytes r.2.generation else []
    state := s.mapConfig fun _ => r.2 }

/-! ### READ COUNTERS (R164) -/

/-- Indices of the hit counters returned from a first index. -/
def hitIndices (first : Nat) : List Nat := List.range' first (min 16 (Config.tableEntries - first))

def counterBytes (cs : List Count) : List Byte := cs.flatMap wordBytes

/-- The counters of a group and the bank with them cleared; none for an unknown group or a selector out of range. -/
def CounterBank.group (b : CounterBank) (group : Nat) (selector : Nat) : Option (List Count × CounterBank) :=
  match group with
  | 1 =>
    if h : selector < 4 then
      some ((b.port.get ⟨selector, h⟩).toList, { b with port := b.port.set ⟨selector, h⟩ (Vector.replicate 12 0#32) })
    else none
  | 2 =>
    if h : selector < 4 then
      some ((b.level.get ⟨selector, h⟩).toList, { b with level := b.level.set ⟨selector, h⟩ (Vector.replicate 22 0#32) })
    else none
  | 3 => some (b.trunk.toList, { b with trunk := Vector.replicate 11 0#32 })
  | 4 => some (b.mgmt.toList, { b with mgmt := Vector.replicate 8 0#32 })
  | 5 =>
    if selector < Config.tableEntries then
      some ((hitIndices selector).map b.hit, (hitIndices selector).foldl (fun b i => b.setHit i 0#32) b)
    else none
  | _ => none

/-- The group and selector bytes are echoed, for every group: for TRUNK and MANAGEMENT, whose selector is ignored, that
is the model's choice (R164, R191, log 36). -/
def State.carryReadCounters (s : State) (args : List Byte) : Answer :=
  match s.counters.group (byteAt args 0).toNat (halfAt args 1).toNat with
  | none => Answer.refusal .range s
  | some (values, cleared) =>
    if 1 < (byteAt args 3).toNat then Answer.refusal .range s
    else
      { status := .ok
        results := args.take 3 ++ [natByte values.length] ++ counterBytes values
        state := if byteAt args 3 = 1#8 then s.mapCounters fun _ => cleared else s }

/-! ### READ EVENTS, ACK EVENTS (R165, R181) -/

/-- Returns the oldest records and clears the notice latch; a READ EVENTS that is refused leaves the latch as it was,
the model's choice (R165, R184, log 34). -/
def State.carryReadEvents (s : State) (args : List Byte) : Answer :=
  let count := (byteAt args 0).toNat
  if 1 ≤ count ∧ count ≤ 8 then
    let records := s.events.records.take count
    { status := .ok
      results := natByte records.length :: records.flatMap recordBytes
      state := s.mapAgent fun a => { a with noticeLatch := false } }
  else Answer.refusal .range s

def State.carryAckEvents (s : State) (args : List Byte) : Answer :=
  let n := (byteAt args 0).toNat
  if n ≤ 32 ∧ n ≤ s.events.records.length then
    { status := .ok
      results := [natByte (s.events.records.length - n)]
      state := s.mapEvents fun q => { q with records := q.records.drop n } }
  else Answer.refusal .range s

/-! ### FLUSH LEVEL (R166) -/

def State.carryFlushLevel (s : State) (args : List Byte) : Answer :=
  match fourOf (byteAt args 0) with
  | none => Answer.refusal .range s
  | some l => { status := .ok, results := natHalf (s.sched.queues.get l).length, state := s.flush l }

/-! ### LINK CONTROL, RESTART (R167, R168) -/

/-- Codes of section 11.3. -/
def linkActionOf (b : Byte) : Option LinkAction :=
  match b.toNat with
  | 1 => some .drop
  | 2 => some .hold
  | 3 => some .release
  | _ => none

def restartKindOf (b : Byte) : Option RestartKind :=
  match b.toNat with
  | 1 => some .traffic
  | 2 => some .full
  | _ => none

/-- Replies with a status and no results. -/
def State.refuse (s : State) (r : Request) (status : Status) : State := (s.reply r status []).1

/-- A valid LINK CONTROL or RESTART is answered OK and deferred; any other value is refused RANGE (R167, R168). Where the
Transmit Pool refuses a trunk reply the command acts in this same event, and the NOTICE of the POOL_EXHAUSTED record claims the
reserve before the LINK_DOWN answers do: the model's choice (R112, log 38). -/
def State.deferCommand (s : State) (r : Request) : Option DeferredCommand → State
  | none => s.refuse r .range
  | some c =>
    match s.reply r .ok [] with
    | (s', awaited) => s'.deferOrApply c awaited

/-! ### Forwarding to the peer (R171) -/

/-- The tag chosen for a relayed request: the next local tag, or the first after it that no entry holds. -/
def Agent.chooseTag (a : Agent) : Byte :=
  ((List.range 5).map fun i => a.nextLocalTag + BitVec.ofNat 8 i).find? (fun t => a.peers.all fun e => !decide (e.localTag = t))
    |>.getD a.nextLocalTag

/-- The request as relayed: the local tag, type request-local, the rest unchanged. -/
def Request.relayed (r : Request) (localTag : Byte) : List Byte := [0#8, localTag, 0#8] ++ r.payload.drop 3

/-- The entry of a relayed request (R170, R171). -/
def State.newPeer (s : State) (r : Request) (p : Port) : PeerEntry :=
  { localTag := s.agent.chooseTag, port := p, originalTag := r.tag, replyStream := r.replyStream, command := r.command
    deadline := timeAfter s.now (1000 * s.config.active.part.peerTimeout) }

/-- A request-peer from a station port (R171). -/
def State.forward (s : State) (r : Request) (p : Port) : State :=
  if s.link.state ≠ .up then s.refuse r .linkDown
  else if Config.peerPlaces ≤ s.agent.peers.length then s.refuse r .peerBusy
  else
    let e := s.newPeer r p
    match s.sendTrunk .forwardedRequest (r.relayed e.localTag) with
    | (s', none) => s'.refuse r .noBuffer
    | (s', some _) => s'.mapAgent fun a => { a with peers := a.peers ++ [e], nextLocalTag := e.localTag + 1#8 }

/-! ### Execution (R158) -/

/-- Bytes of arguments a command requires; none for a code outside 0x01 to 0x0B (R191). -/
def requiredArgs (command : Byte) (args : List Byte) : Option Nat :=
  match command.toNat with
  | 1 => some 0
  | 2 => some 5
  | 3 => some (3 + match tableOfCode (byteAt args 0) with | none => 0 | some t => t.entryLength)
  | 4 => some 1
  | 5 => some 2
  | 6 => some 4
  | 7 => some 1
  | 8 => some 1
  | 9 => some 1
  | 10 => some 1
  | 11 => some 1
  | _ => none

/-- Replies with what a command gave, on the state it left: after a COMMIT, from the new bank (log 33). -/
def Answer.send (a : Answer) (r : Request) : State := (a.state.reply r a.status a.results).1

/-- A command of the table carried out, its arguments long enough (R158 row 6). -/
def State.carryOut (s : State) (r : Request) : State :=
  match r.command.toNat with
  | 1 => s.carryStatus.send r
  | 2 => (s.carryReadEntries r.args).send r
  | 3 => (s.carryWriteEntry r.args).send r
  | 4 => (s.carryClearShadow r.args).send r
  | 5 => (s.carryCommit r.args).send r
  | 6 => (s.carryReadCounters r.args).send r
  | 7 => (s.carryReadEvents r.args).send r
  | 8 => (s.carryAckEvents r.args).send r
  | 9 => (s.carryFlushLevel r.args).send r
  | 10 => s.deferCommand r ((linkActionOf (byteAt r.args 0)).map .linkControl)
  | _ => s.deferCommand r ((restartKindOf (byteAt r.args 0)).map .restart)

/-- A request-local: rows 4 to 6 of R158. -/
def State.executeLocal (s : State) (r : Request) : State :=
  match requiredArgs r.command r.args with
  | none => s.refuse r .malformed
  | some n => if r.args.length < n then s.refuse r .malformed else s.carryOut r

/-- The rows of R158, first that applies. -/
def State.executeRequest (s : State) (r : Request) : State :=
  match r.source with
  | .trunk _ =>
    if s.config.active.part.remoteMgmt = false then s.refuse r .notPermitted
    else if r.type = 1#8 then s.refuse r .invalid
    else s.executeLocal r
  | .station p => if r.type = 1#8 then s.forward r p else s.executeLocal r

/-- The request the Agent would execute now: the head of the queue while the mode is READY (R158). -/
def Agent.headReady (a : Agent) : Option Request :=
  match a.mode with
  | .ready => a.requests.head?
  | .deferring _ _ => none

/-- The head leaves the queue and is executed (R157, R158). -/
def State.executeHead (s : State) (r : Request) : State :=
  (s.mapAgent fun a => { a with requests := a.requests.tail }).executeRequest r

/-- Executes the requests whose execution is due, one after the other, up to some number: the mode stays READY and the
queue is not empty (R158). -/
def State.executeDue : Nat → State → State
  | 0, s => s
  | n + 1, s =>
    match s.agent.headReady with
    | none => s
    | some r => State.executeDue n (s.executeHead r)

/-- The state that the next event finds: execution is taken at once after any event that leaves the mode READY with the
queue non-empty, so before any other event (R158, log 2). -/
def State.settled (s : State) : State := s.executeDue s.agent.requests.length

/-- An event that is no execution. While the reset pin is held the first rule applies; otherwise every execution that is
due is taken first (R158). -/
def takeEvent (held running : State → State) (s : State) : Host.Outcome State Fault Refusal :=
  .next (if s.pins.resetHeld then held s else running s.settled)

/-- An event inside the part: while the reset pin is held nothing happens there (log 9). -/
def whenRunning (f : State → State) : State → Host.Outcome State Fault Refusal := takeEvent id f

/-- Executes the head when it is a request of the kind a command names; else nothing is executed (log 5). -/
def State.executeIf (s : State) (named : Request → Bool) : State :=
  match s.agent.headReady with
  | none => s
  | some r => if named r then s.executeHead r else s

/-- A request-local of a command code. -/
def Request.isLocal (code : Nat) (r : Request) : Bool := !decide (r.type = 1#8) && decide (r.command.toNat = code)

/-- A request-local of a command code whose first argument byte is given. -/
def Request.isLocalWith (code argument : Nat) (r : Request) : Bool :=
  r.isLocal code && decide ((r.args.head?.map BitVec.toNat) = some argument)

def Request.isPeer (r : Request) : Bool := decide (r.type = 1#8)

/-- A command that names an execution: the request at the head of the queue when it is of the kind named (R158, log 5). -/
def takeExecution (named : Request → Bool) (s : State) : Host.Outcome State Fault Refusal :=
  .next (if s.pins.resetHeld then s else s.executeIf named)

end Sys2Proof.Machine
end

