-- ==== Sys2Proof/Machine/StationPorts.lean ====
section
/-! DEFINITION. Station Port Receivers and the Classifier: FRAME_VALID_RISE, STATION_BYTE_RECEIVED, FRAME_VALID_FALL. -/

namespace Sys2Proof.Machine

def State.setSpr (s : State) (p : Port) (r : Spr) : State := s.mapSprs fun q => q.set p r

def State.setFrameValid (s : State) (p : Port) (high : Bool) : State :=
  s.mapPins fun k => { k with frameValid := k.frameValid.set p high }

/-! ### FRAME_VALID_RISE (R94) -/

/-- A rise taken as in IDLE: a TX descriptor is claimed (R94). -/
def State.beginFrame (s : State) (p : Port) : State :=
  match s.txPool.claimDesc with
  | none => (s.setSpr p (Spr.cleared (.dropping .noDescriptor))).txClaimFailed (.port p) 1
  | some (n, pool) => (s.mapTxPool fun _ => pool).setSpr p (Spr.cleared (.receiving n))

def State.takeRise (s : State) (p : Port) : State :=
  match (s.sprs.get p).state with
  | .idle => s.beginFrame p
  | .skipping => s.beginFrame p
  | .receiving _ => s
  | .dropping _ => s

/-- FRAME_VALID_RISE. While the reset pin is held only the level of the pin is followed (log 9); a level that is high
already has no rise (log 7). -/
def execFrameValidRise (p : Port) : State → Host.Outcome State Fault Refusal :=
  takeEvent (fun s => s.setFrameValid p true) fun s =>
    if s.pins.frameValid.get p then s else (s.setFrameValid p true).takeRise p

/-! ### STATION_BYTE_RECEIVED (R95, R96) -/

/-- The last cell of a chain has room for a byte. -/
def lastHasRoom (cells : List PoolCell) : Bool :=
  match cells.getLast? with
  | none => false
  | some c => decide (c.bytes.length < Config.cellBytes)

/-- A byte written after the last byte of a chain. -/
def appendByte (b : Byte) : List PoolCell → List PoolCell
  | [] => []
  | [c] => [{ c with bytes := c.bytes ++ [b] }]
  | c :: cs => c :: appendByte b cs

/-- The pair with a byte that enters it, and the byte that leaves it when it held two (R95). -/
def enterPair (pair : List Byte) (b : Byte) : Option Byte × List Byte :=
  match pair with
  | [old, kept] => (some old, [kept, b])
  | _ => (none, pair ++ [b])

/-- Bytes 1 to 4 (R95). -/
def Spr.headerByte (r : Spr) (b : Byte) : Spr :=
  { r with header := r.header ++ [b], crc := crcByte r.crc b, byteCount := r.byteCount + 1 }

/-- A later byte enters the pair and the byte that leaves it, if any, is fed to the CRC state. -/
def Spr.pairByte (r : Spr) (b : Byte) : Spr :=
  { r with
    trailing := (enterPair r.trailing b).2
    crc := match (enterPair r.trailing b).1 with | none => r.crc | some old => crcByte r.crc old
    byteCount := r.byteCount + 1 }

/-- A claim of a cell failed: the frame is dropped at that byte (R96). -/
def State.dropNoBuffer (s : State) (p : Port) (r : Spr) (n : Nat) : State :=
  ((s.setSpr p (Spr.cleared (.dropping .noBuffer))).txClaimFailed (.port p) 2).mapTxPool (·.giveBack r.cells n)

/-- Bytes 5 to 1542 (R95). -/
def State.payloadByte (s : State) (p : Port) (r : Spr) (n : Nat) (b : Byte) : State :=
  match (enterPair r.trailing b).1 with
  | none => s.setSpr p (r.pairByte b)
  | some old =>
    if lastHasRoom r.cells then s.setSpr p { r.pairByte b with cells := appendByte old r.cells }
    else
      match s.txPool.claimCell with
      | none => s.dropNoBuffer p r n
      | some (c, pool) =>
        (s.mapTxPool fun _ => pool).setSpr p { r.pairByte b with cells := r.cells ++ [{ number := c, bytes := [old] }] }

/-- A byte clocked in RECEIVING; in the other states bytes are ignored (R95). -/
def State.takeByte (s : State) (p : Port) (b : Byte) : State :=
  let r := s.sprs.get p
  match r.state with
  | .receiving n =>
    if r.byteCount < 4 then s.setSpr p (r.headerByte b)
    else if r.byteCount < Config.longestStationFrame then s.payloadByte p r n b
    else s.setSpr p { r with overlength := true }
  | .idle => s
  | .dropping _ => s
  | .skipping => s

/-- STATION_BYTE_RECEIVED. Bytes clocked while frame-valid is low are ignored (R92). -/
def execStationByteReceived (p : Port) (b : Byte) : State → Host.Outcome State Fault Refusal :=
  whenRunning fun s => if s.pins.frameValid.get p then s.takeByte p b else s

/-! ### FRAME_VALID_FALL (R97) -/

/-- The outcomes of R97 for a frame in RECEIVING. -/
inductive FallOutcome where
  | dropped (c : PortCounter)
  | management
  | user
  deriving DecidableEq, Repr

def Spr.stream (r : Spr) : Half := halfAt r.header 0
def Spr.declaredLength (r : Spr) : Nat := (halfAt r.header 2).toNat

/-- Orders 2 to 7 of R97. -/
def Spr.outcome (r : Spr) (enabled : Bool) : FallOutcome :=
  if enabled = false then .dropped .disabled
  else if r.byteCount < 6 then .dropped .runt
  else if r.overlength = true ∨ r.declaredLength < 1 ∨ 1536 < r.declaredLength ∨ r.byteCount ≠ r.declaredLength + 6 then
    .dropped .length
  else if r.crc ≠ halfAt r.trailing 0 then .dropped .crc
  else if r.stream = Config.mgmtStream then .management
  else .user

def SprDrop.counter : SprDrop → PortCounter
  | .noDescriptor => .noDescriptor
  | .noBuffer => .noBuffer

/-- A frame's holdings return to the pool. -/
def State.giveBackFrame (s : State) (r : Spr) (n : Nat) : State := s.mapTxPool (·.giveBack r.cells n)

/-- The management stream (R100). -/
def State.managementFrame (s : State) (p : Port) (r : Spr) (n : Nat) : State :=
  if (s.config.active.ports.get p).mgmtPermitted then (s.giveBackFrame r n).stationPayload p (chainBytes r.cells)
  else (s.giveBackFrame r n).countPort p .mgmtRefused

/-- What the lookup gives a user frame, with the index hit (R101). -/
structure Classified where
  hit : Option Nat
  action : Action
  level : Level
  atomic : Bool
  trunkStream : Option Half
  deriving DecidableEq, Repr

/-- The valid Stream Table entry of a key. -/
def Bank.streamFor (b : Bank) (m : MatchPort) (stream : Half) : Option (Nat × StreamEntry) :=
  b.streams.find? fun e => decide (e.2.matchPort = m) && decide (e.2.stream = stream)

/-- An entry found is a hit on its index. -/
def Classified.ofEntry (e : Nat × StreamEntry) : Classified :=
  { hit := some e.1, action := e.2.action, level := e.2.level, atomic := e.2.atomic, trunkStream := e.2.trunkStream }

/-- The port's entry, else the ANY entry, else the port's defaults (R101). -/
def Bank.classify (b : Bank) (p : Port) (stream : Half) : Classified :=
  match b.streamFor (.port p) stream with
  | some e => Classified.ofEntry e
  | none =>
    match b.streamFor .any stream with
    | some e => Classified.ofEntry e
    | none =>
      { hit := none, action := (b.ports.get p).defaultAction, level := (b.ports.get p).defaultLevel, atomic := false
        trunkStream := none }

/-- The descriptor completed by classification (R103). -/
def Classified.descriptor (c : Classified) (p : Port) (r : Spr) (n : Nat) (now : Time) : TxDescriptor :=
  { number := n, level := c.level, atomic := c.atomic, trunkStream := c.trunkStream.getD r.stream
    frameLength := r.declaredLength, cells := r.cells, origin := .station, admissionTime := now, ingressPort := some p }

/-- The check of R104: the queue's cells with the frame's stay within the tx queue limit. -/
def State.queueHasRoom (s : State) (l : Level) (cells : Nat) : Bool :=
  decide (s.levelQueueCells l + cells ≤ (s.config.active.levels.get l).txQueueLimit)

/-- The action found decides the frame's treatment (R103, R104). -/
def State.treatFrame (s : State) (p : Port) (r : Spr) (n : Nat) (c : Classified) : State :=
  match c.action with
  | .drop => (s.giveBackFrame r n).countPort p .dropAction
  | .forward =>
    if s.queueHasRoom c.level r.cells.length then s.admission (c.descriptor p r n s.now)
    else (s.giveBackFrame r n).countPort p .queueFull

/-- Classification of a user frame, counting the hit (R101 to R104). -/
def State.userFrame (s : State) (p : Port) (r : Spr) (n : Nat) : State :=
  let c := s.config.active.classify p r.stream
  (match c.hit with
    | none => s
    | some i => s.countHit i).treatFrame p r n c

/-- The end of a frame that held a descriptor (R97). -/
def State.endFrame (s : State) (p : Port) (r : Spr) (n : Nat) : State :=
  match r.outcome (s.config.active.ports.get p).enabled with
  | .dropped c => (s.giveBackFrame r n).countPort p c
  | .management => s.managementFrame p r n
  | .user => s.userFrame p r n

/-- A fall of frame-valid; the receiver becomes IDLE and holds nothing of the frame (R97). -/
def State.takeFall (s : State) (p : Port) : State :=
  let r := s.sprs.get p
  let s' := s.setSpr p (Spr.cleared .idle)
  match r.state with
  | .idle => s
  | .skipping => s'
  | .dropping d => (s'.countPort p .framesIn).countPort p d.counter
  | .receiving n => (s'.countPort p .framesIn).endFrame p r n

/-- FRAME_VALID_FALL. A level that is low already has no fall (log 7). -/
def execFrameValidFall (p : Port) : State → Host.Outcome State Fault Refusal :=
  takeEvent (fun s => s.setFrameValid p false) fun s =>
    if s.pins.frameValid.get p then (s.setFrameValid p false).takeFall p else s

end Sys2Proof.Machine
end

