-- ==== Sys2Proof/Machine/TrunkLine.lean ====
section
/-! DEFINITION. The trunk line: START_DELIMITER_ARRIVAL, DATA_BYTE_ARRIVAL, SEGMENT_RECEPTION_END,
TRANSMISSION_COMPLETION, LINE_SIGNAL_LOSS, LINE_SIGNAL_RETURN. -/

namespace Sys2Proof.Machine

/-! ### Reception (R8, R9) -/

def Reception.begun : Reception := { bytes := [], overlength := false }

/-- A data byte is added, or marks the segment overlength once 75 bytes are held (R8). -/
def Reception.add (r : Reception) (b : Byte) : Reception :=
  if r.bytes.length < Config.longestSegment then { r with bytes := r.bytes ++ [b] } else { r with overlength := true }

/-- DATA_BYTE_ARRIVAL. With no segment in reception the byte is ignored. -/
def execDataByteArrival (b : Byte) : State → Host.Outcome State Fault Refusal :=
  whenRunning fun s => s.mapReception fun r => r.map (·.add b)

/-- The check of R9 on the segment whose reception has ended. -/
def Reception.judge (r : Reception) : ReceptionEnd → Option GoodSegment
  | .endDelimiter => if r.overlength then none else checkSegment r.bytes
  | .startDelimiter => none
  | .idleFill => none

/-- The segment whose reception has ended is reported, good or bad (R9, R70). -/
def State.reportSegment (s : State) : Option GoodSegment → State
  | none => s.badSegment
  | some g => s.goodSegment g

/-- Reception ends; a DOWN event may release a deferred command (R8, R9, R169). -/
def State.closeReception (s : State) (r : Reception) (how : ReceptionEnd) : State :=
  releaseIfDown s ((s.mapReception fun _ => none).reportSegment (r.judge how))

/-- What ends a reception also begins the next one when it is a start delimiter (R8). -/
def State.openReception (s : State) : ReceptionEnd → State
  | .endDelimiter => s
  | .startDelimiter => s.mapReception fun _ => some Reception.begun
  | .idleFill => s

/-- An end delimiter, a start delimiter or idle fill arrives. A start delimiter begins its new segment last: where the
segment it ends takes the link down and so releases a deferred RESTART, after that restart, the model's choice (R8,
R169, log 37). -/
def State.lineSymbol (s : State) (how : ReceptionEnd) : State :=
  match s.reception with
  | none => s.openReception how
  | some r => (s.closeReception r how).openReception how

/-- SEGMENT_RECEPTION_END. With no segment in reception an end delimiter or idle fill is ignored. -/
def execSegmentReceptionEnd (how : ReceptionEnd) : State → Host.Outcome State Fault Refusal :=
  whenRunning fun s => s.lineSymbol how

/-- START_DELIMITER_ARRIVAL. A segment in reception ends as malformed first (R8). -/
def execStartDelimiterArrival : State → Host.Outcome State Fault Refusal :=
  whenRunning fun s => s.lineSymbol .startDelimiter

/-! ### Transmission completion (R11, R34, R169) -/

/-- The reply a completed segment was the last of. -/
def Segment.replyDone : Segment → Option AwaitedReply
  | .data d => if d.kind.closes ∧ d.frame.origin = .trunkReply then some (.trunk d.frame.number) else none
  | .control _ => none
  | .hello _ _ => none

/-- The completed segment's reports, the deferred command they may release, then the start of the latched segment
(log 20). -/
def State.transmissionDone (s : State) : State :=
  match s.trunkTx.inFlight with
  | none => s
  | some g =>
    match g.replyDone with
    | none => (s.segmentCompleted g).startLatched
    | some a => ((s.segmentCompleted g).replyLeft a).startLatched

/-- TRANSMISSION_COMPLETION. -/
def execTransmissionCompletion : State → Host.Outcome State Fault Refusal := whenRunning State.transmissionDone

/-! ### Line signal (R8, R71) -/

def State.setSignal (s : State) (present : Bool) : State := s.mapLink fun k => { k with signal := present }

/-- The signal is lost: a segment in reception is discarded without check and without count; a hold-off is removed, or
the link goes down with cause SIGNAL (R8, R71). -/
def State.signalLost (s : State) : State :=
  let s1 := (s.setSignal false).mapReception fun _ => none
  if s.link.state = .down then s1.mapLink fun k => { k with holdOff := none }
  else releaseIfDown s1 (s1.linkDown .signal)

/-- LINE_SIGNAL_LOSS. -/
def execLineSignalLoss : State → Host.Outcome State Fault Refusal :=
  takeEvent (·.setSignal false) fun s => if s.link.signal then s.signalLost else s

/-- The signal returns: while the link is DOWN and not held the hold-off starts (R71). -/
def State.signalBack (s : State) : State :=
  let s1 := s.setSignal true
  if s.link.state = .down ∧ s.link.held = false then s1.startHoldOff else s1

/-- LINE_SIGNAL_RETURN. -/
def execLineSignalReturn : State → Host.Outcome State Fault Refusal :=
  takeEvent (·.setSignal true) fun s => if s.link.signal then s else s.signalBack

end Sys2Proof.Machine
end

