-- ==== Sys2Proof/Machine/Timers.lean ====
section
/-! DEFINITION. Timer events and the copy-back completion. Each is taken when its deadline is present and the Time Base
has reached it; otherwise the event has not come about and nothing changes (R186, log 4). -/

namespace Sys2Proof.Machine

/-! ### Link Controller (R71, R73, R77, R85, R86) -/

def State.holdOffDue (s : State) : Bool := decide (s.link.state = .down) && deadlineReached s.now s.link.holdOff

/-- HOLD_OFF_EXPIRY: the link enters HELLO. -/
def execHoldOffExpiry : State → Host.Outcome State Fault Refusal :=
  whenRunning fun s => if s.holdOffDue then s.enterHello else s

def State.helloDue (s : State) : Bool := decide (s.link.state = .hello) && deadlineReached s.now s.link.helloDeadline

/-- The deadline moves 1 ms on, and another HELLO is placed when the latch is empty (R73). -/
def State.nextHello (s : State) : State :=
  (s.mapLink fun k => { k with helloDeadline := k.helloDeadline.map fun d => timeAfter d Config.helloInterval }).placeHello

/-- HELLO_DEADLINE_EXPIRY. -/
def execHelloDeadlineExpiry : State → Host.Outcome State Fault Refusal :=
  whenRunning fun s => if s.helloDue then s.nextHello else s

def State.silenceDue (s : State) : Bool := decide (s.link.state = .up) && deadlineReached s.now s.link.silenceDeadline

/-- SILENCE_DEADLINE_EXPIRY: the link goes down with cause SILENCE. -/
def execSilenceDeadlineExpiry : State → Host.Outcome State Fault Refusal :=
  whenRunning fun s => if s.silenceDue then releaseIfDown s (s.linkDown .silence) else s

def State.keepaliveDue (s : State) : Bool :=
  decide (s.link.state = .up) && deadlineReached s.now s.link.keepaliveDeadline

/-- CONTROL due becomes yes and the deadline is removed (R86). -/
def State.keepalive (s : State) : State :=
  State.triggerIfDue s (s.mapLink fun k => { k with keepaliveDeadline := none, controlDue := true })

/-- KEEPALIVE_DEADLINE_EXPIRY. -/
def execKeepaliveDeadlineExpiry : State → Host.Outcome State Fault Refusal :=
  whenRunning fun s => if s.keepaliveDue then s.keepalive else s

def State.advanceDue (s : State) (l : Level) : Bool :=
  decide (s.link.state = .up) && deadlineReached s.now (s.link.advanceDeadline.get l)

/-- The level's limit is still ahead of its last-advertised value (R85). -/
def State.limitAhead (s : State) (l : Level) : Bool :=
  match s.link.lastAdvertised.get l with
  | none => false
  | some a => seqAhead (s.computedLimit l) a

/-- The advance deadline passes, and CONTROL due becomes yes while the limit is still ahead (R85). -/
def State.advanceAged (s : State) (l : Level) : State :=
  State.triggerIfDue s (s.mapLink fun k =>
    { k with advanceDeadline := k.advanceDeadline.set l none, controlDue := k.controlDue || s.limitAhead l })

/-- ADVANCE_DEADLINE_EXPIRY. -/
def execAdvanceDeadlineExpiry (l : Level) : State → Host.Outcome State Fault Refusal :=
  whenRunning fun s => if s.advanceDue l then s.advanceAged l else s

/-! ### Transmit Scheduler (R32) -/

/-- The open transmit frame of a level. -/
def State.txOpenAt (s : State) (l : Level) : Option TxEntry := s.sched.stack.find? fun e => decide (e.frame.level = l)

def State.suspensionDue (s : State) (l : Level) : Bool :=
  match s.txOpenAt l with
  | none => false
  | some e => deadlineReached s.now e.suspensionDeadline

/-- The frame is marked protected and the deadline removed (R32). -/
def TxEntry.protect (e : TxEntry) : TxEntry := { e with suspensionDeadline := none, protectedMark := true }

/-- The frame open at the level is protected, counted and recorded (R32). -/
def State.protectAt (s : State) (l : Level) (e : TxEntry) : State :=
  ((s.mapSched fun k =>
      { k with stack := k.stack.map fun x => if x.frame.level = l then x.protect else x }).countLevel l .protections).offerEvent
    .txProtect (.level l) (some e.frame.trunkStream) (BitVec.ofNat 16 e.nextIndex)

/-- The suspension deadline of the frame open at a level, if it has one that has passed. -/
def State.suspensionExpired (s : State) (l : Level) : State :=
  match s.txOpenAt l with
  | none => s
  | some e => if deadlineReached s.now e.suspensionDeadline then s.protectAt l e else s

/-- SUSPENSION_DEADLINE_EXPIRY. -/
def execSuspensionDeadlineExpiry (l : Level) : State → Host.Outcome State Fault Refusal :=
  whenRunning fun s => s.suspensionExpired l

/-! ### Reassembler (R57) -/

def State.ageDue (s : State) (l : Level) : Bool :=
  match s.openAt l with
  | none => false
  | some e => deadlineReached s.now e.ageDeadline

/-- The deadline is removed, and a frame not yet discarding is marked AGE (R57). -/
def State.ageAt (s : State) (l : Level) : State :=
  creditReport s
    ((s.mapReasm fun a =>
        { a with stack := a.stack.map fun e => if e.level = l then { e with ageDeadline := none } else e }).markDiscarding
      l .age)

/-- AGE_DEADLINE_EXPIRY. -/
def execAgeDeadlineExpiry (l : Level) : State → Host.Outcome State Fault Refusal :=
  whenRunning fun s => if s.ageDue l then s.ageAt l else s

/-! ### Management Agent (R173) -/

def State.peerDue (s : State) (e : PeerEntry) : Bool := timeReached s.now e.deadline

/-- The entry is removed, answered PEER_TIMEOUT, counted and recorded (R173). -/
def State.peerTimedOut (s : State) (e : PeerEntry) : State :=
  ((State.answerPeer .peerTimeout (s.mapAgent fun a => { a with peers := a.peers.erase e }) e).countMgmt
    .peerTimeouts).offerEvent .peerTimeout (.port e.port) none (e.localTag.setWidth 16)

/-- The deadline of the pending entry with a local tag, if it has passed. -/
def State.peerExpired (s : State) (localTag : Byte) : State :=
  match s.agent.peers.find? fun e => decide (e.localTag = localTag) with
  | none => s
  | some e => if s.peerDue e then s.peerTimedOut e else s

/-- PEER_DEADLINE_EXPIRY. -/
def execPeerDeadlineExpiry (localTag : Byte) : State → Host.Outcome State Fault Refusal :=
  whenRunning fun s => s.peerExpired localTag

/-! ### Configuration Store (R148) -/

/-- The Shadow bank equals the Active bank, copy-back is IDLE, COMMIT_DONE is recorded (R148). -/
def State.copyBackDone (s : State) : State :=
  (s.mapConfig (·.copyDone)).offerEvent .commitDone .none none s.config.generation

/-- COPY_BACK_COMPLETION, taken at any time while copy-back is RUNNING (R148, log 26). -/
def execCopyBackCompletion : State → Host.Outcome State Fault Refusal :=
  whenRunning fun s => if s.config.copyBack.isSome then s.copyBackDone else s

end Sys2Proof.Machine
end

