-- ==== Sys2Proof/Machine/Egress.lean ====
section
/-! DEFINITION. Station Port Transmitters: EGRESS_FRAME_START and EGRESS_COMPLETION. -/

namespace Sys2Proof.Machine

/-- EGRESS_FRAME_START: an IDLE transmitter with a non-empty queue starts its head (R127). -/
def execEgressFrameStart (p : Port) : State → Host.Outcome State Fault Refusal :=
  whenRunning fun s => s.mapEgress fun q => q.set p (q.get p).startHead

/-- The completion at a port: counted, off the queue, released or kept for other ports, reported for credit, and
reported to the Agent (R129). -/
def State.egressDone (s : State) (p : Port) (n : Nat) : State :=
  (creditReport s (s.frameOut p n)).replyLeft (.station p n)

/-- The frame in transmission at a port, if any, is complete. -/
def State.egressCompleted (s : State) (p : Port) : State :=
  match (s.egress.get p).state, (s.egress.get p).queue with
  | .sending, n :: _ => s.egressDone p n
  | .sending, [] => s
  | .idle, _ => s
  | .idleGap, _ => s

/-- EGRESS_COMPLETION. -/
def execEgressCompletion (p : Port) : State → Host.Outcome State Fault Refusal :=
  whenRunning fun s => s.egressCompleted p

end Sys2Proof.Machine
end

