-- ==== Sys2Proof/Machine/Resets.lean ====
section
/-! DEFINITION. The reset pin and the supply: RESET_PIN_ASSERT, COLD_START, SUPPLY_BELOW_OPERATING_LEVEL. -/

namespace Sys2Proof.Machine

/-- RESET_PIN_ASSERT: the part is in reset, the straps are sampled and the Time Base stands at 0 (R89, R91, R186). What
the blocks hold cannot be seen from now on and is replaced at the release (log 9). -/
def execResetPinAssert (trunk station : Straps) (s : State) : Host.Outcome State Fault Refusal :=
  .next
    ((s.mapPins fun k => { k with resetHeld := true, trunkStraps := trunk, stationStraps := station }).mapTime fun t =>
      { t with timeBase := 0#32 })

/-- COLD_START: the release of the reset pin, in any state (R179, log 8). -/
def execColdStart (s : State) : Host.Outcome State Fault Refusal := .next s.coldStart

/-- SUPPLY_BELOW_OPERATING_LEVEL: the next cold start is a POWER_UP (R187). -/
def execSupplyBelowOperatingLevel (s : State) : Host.Outcome State Fault Refusal :=
  .next (s.mapPins fun k => { k with supplyLow := true })

end Sys2Proof.Machine
end

