-- ==== Sys2Proof/Machine/Management.lean ====
section
/-! DEFINITION. The management commands. Each is the Agent's execution of the request at the head of the Management
Request Queue, when that request is of the command's kind and the mode is READY (R158, log 5). -/

namespace Sys2Proof.Machine

/-- STATUS (0x01). -/
def execStatus : State → Host.Outcome State Fault Refusal :=
  takeExecution (Request.isLocal 1)

/-- READ ENTRIES (0x02). -/
def execReadEntries : State → Host.Outcome State Fault Refusal :=
  takeExecution (Request.isLocal 2)

/-- WRITE ENTRY (0x03). -/
def execWriteEntry : State → Host.Outcome State Fault Refusal :=
  takeExecution (Request.isLocal 3)

/-- CLEAR SHADOW (0x04). -/
def execClearShadow : State → Host.Outcome State Fault Refusal :=
  takeExecution (Request.isLocal 4)

/-- COMMIT (0x05). -/
def execCommit : State → Host.Outcome State Fault Refusal :=
  takeExecution (Request.isLocal 5)

/-- READ COUNTERS (0x06). -/
def execReadCounters : State → Host.Outcome State Fault Refusal :=
  takeExecution (Request.isLocal 6)

/-- READ EVENTS (0x07). -/
def execReadEvents : State → Host.Outcome State Fault Refusal :=
  takeExecution (Request.isLocal 7)

/-- ACK EVENTS (0x08). -/
def execAckEvents : State → Host.Outcome State Fault Refusal :=
  takeExecution (Request.isLocal 8)

/-- FLUSH LEVEL (0x09). -/
def execFlushLevel : State → Host.Outcome State Fault Refusal :=
  takeExecution (Request.isLocal 9)

/-- LINK CONTROL (0x0A) with action 1. -/
def execLinkControlDrop : State → Host.Outcome State Fault Refusal :=
  takeExecution (Request.isLocalWith 10 1)

/-- LINK CONTROL (0x0A) with action 2. -/
def execLinkControlHold : State → Host.Outcome State Fault Refusal :=
  takeExecution (Request.isLocalWith 10 2)

/-- LINK CONTROL (0x0A) with action 3. -/
def execLinkControlRelease : State → Host.Outcome State Fault Refusal :=
  takeExecution (Request.isLocalWith 10 3)

/-- RESTART (0x0B) with kind 1. -/
def execTrafficRestart : State → Host.Outcome State Fault Refusal :=
  takeExecution (Request.isLocalWith 11 1)

/-- RESTART (0x0B) with kind 2. -/
def execFullRestart : State → Host.Outcome State Fault Refusal :=
  takeExecution (Request.isLocalWith 11 2)

/-- A request-peer (R171); one from the trunk is answered by rows 1 and 2 of R158. -/
def execRequestPeerForwarding : State → Host.Outcome State Fault Refusal :=
  takeExecution Request.isPeer

end Sys2Proof.Machine
end

