-- ==== Sys2Proof/Machine/Idle.lean ====
section
/-! DEFINITION. What the part does of its own when no command waits: it executes a queued request, takes up an internal
event that is due, or lets a microsecond pass (R127, R148, R158, R186; log 2). -/

namespace Sys2Proof.Machine

def dueIf (b : Bool) (c : Instr) : List Instr := if b then [c] else []

/-- Copy-back has run for its longest time (R148). -/
def State.copyBackOverdue (s : State) : Bool :=
  deadlineReached s.now (s.config.copyBack.map fun t => timeAfter t Config.copyBackTime)

/-- A transmitter that is not SENDING and whose queue holds a frame (R127). -/
def EgressPort.canStart (e : EgressPort) : Bool := decide (e.state ≠ .sending) && !e.queue.isEmpty

/-- The internal events due now, each as the command that takes it. -/
def State.dueEvents (s : State) : List Instr :=
  dueIf s.holdOffDue .holdOffExpiry ++ dueIf s.helloDue .helloDeadlineExpiry ++
    dueIf s.silenceDue .silenceDeadlineExpiry ++ dueIf s.keepaliveDue .keepaliveDeadlineExpiry ++
    (fourIndices.filter s.advanceDue).map .advanceDeadlineExpiry ++
    (fourIndices.filter s.suspensionDue).map .suspensionDeadlineExpiry ++
    (fourIndices.filter s.ageDue).map .ageDeadlineExpiry ++
    ((s.agent.peers.filter s.peerDue).map fun e => .peerDeadlineExpiry e.localTag) ++
    dueIf s.copyBackOverdue .copyBackCompletion ++
    (fourIndices.filter fun p => (s.egress.get p).canStart).map .egressFrameStart

def State.queueCommand (s : State) (c : Instr) : State := { s with pending := s.pending ++ [c] }

/-- Which of several events due together is taken next is a free value (log 3). -/
def State.takeDue (s : State) : List Instr → State
  | [] => s
  | [c] => s.queueCommand c
  | c :: d :: cs =>
    s.useFree.queueCommand ((c :: d :: cs).getD (Config.pickEvent s.freeCount % (c :: d :: cs).length) c)

/-- The byte time after a completion is over within a microsecond (R91, R129). -/
def EgressPort.gapOver (e : EgressPort) : EgressPort :=
  { e with state := match e.state with | .idle => .idle | .idleGap => .idle | .sending => .sending }

/-- One microsecond passes (R186), and with it the byte times that end a cut-off segment and follow a station frame. -/
def State.tick (s : State) : State :=
  ((s.mapTime fun t => { t with timeBase := t.timeBase + 1#32 }).mapEgress fun q =>
      Four.make fun p => (q.get p).gapOver).mapTrunkTx (·.delimiterSent)

/-- The idle step. In reset the Time Base stands at 0 and nothing happens (R186). -/
def State.idle (s : State) : State :=
  if s.pins.resetHeld then s
  else
    match s.agent.headReady with
    | some r => s.executeHead r
    | none => if s.dueEvents.isEmpty then s.tick else s.takeDue s.dueEvents

end Sys2Proof.Machine
end

