-- ==== Sys2Proof/Machine/Outputs.lean ====
section
/-! DEFINITION. The output pins, as functions of the state. -/

namespace Sys2Proof.Machine

/-- What the trunk transmit line carries (R7). -/
inductive TrunkLineOutput where
  | noSignal
  | idleFill
  /-- The end delimiter that closes a cut-off segment, without the rest of it and without its CRC (R12). -/
  | endDelimiter
  /-- A start delimiter, these bytes and an end delimiter. -/
  | segment (bytes : List Byte)
  deriving DecidableEq, Repr

/-- No signal while the reset pin is held; the in-flight segment between its delimiters; the end delimiter of a segment
cut off, in the byte time after; or idle fill (R6, R7, R11, R12). -/
def State.trunkTransmitLine (s : State) : TrunkLineOutput :=
  if s.pins.resetHeld then .noSignal
  else
    match s.trunkTx.inFlight with
    | none => if s.trunkTx.cutOff then .endDelimiter else .idleFill
    | some g => .segment g.bytes

/-- Transmit frame-valid of a port: high while its transmitter is SENDING, low while the reset pin is held (R127). -/
def State.transmitFrameValid (s : State) (p : Port) : Bool :=
  !s.pins.resetHeld && decide ((s.egress.get p).state = .sending)

/-- The frame a port sends while transmit frame-valid is high (R128). -/
def State.stationTransmitFrame (s : State) (p : Port) : Option (List Byte) :=
  if s.transmitFrameValid p then
    (s.egress.get p).queue.head?.bind fun n => (s.rxPool.desc n).map (·.frameBytes)
  else none

/-- The transmit clocks run from the release of the reset pin (R127, R133). -/
def State.transmitClocksRun (s : State) : Bool := !s.pins.resetHeld

/-- Strap code: 2 × second + first (R89, R91). -/
def Straps.code (k : Straps) : Nat := 2 * k.second.toNat + k.first.toNat

/-- Trunk line rate in kbit/s (R89). -/
def trunkRate (code : Nat) : Nat := 6250 * 2 ^ code

/-- Station byte rate in kbyte/s (R91). -/
def stationRate (code : Nat) : Nat := 12500 * 2 ^ code

def State.trunkLineRate (s : State) : Nat := trunkRate (Straps.code s.pins.trunkStraps)
def State.stationByteRate (s : State) : Nat := stationRate (Straps.code s.pins.stationStraps)

/-- Byte times a segment occupies on the line with its delimiters (R11). -/
def Segment.byteTimes (g : Segment) : Nat := g.bytes.length + 2

end Sys2Proof.Machine
end

