-- ==== Sys2Proof/Machine/Dispatch.lean ====
section
/-! DEFINITION. One arm per command, one direct call of its meaning each. -/

namespace Sys2Proof.Machine

def exec (i : Instr) (s : State) : Host.Outcome State Fault Refusal :=
  match i with
  | .resetPinAssert trunk station => Sys2Proof.Machine.execResetPinAssert trunk station s
  | .coldStart => Sys2Proof.Machine.execColdStart s
  | .lineSignalLoss => Sys2Proof.Machine.execLineSignalLoss s
  | .lineSignalReturn => Sys2Proof.Machine.execLineSignalReturn s
  | .segmentReceptionEnd how => Sys2Proof.Machine.execSegmentReceptionEnd how s
  | .frameValidRise port => Sys2Proof.Machine.execFrameValidRise port s
  | .stationByteReceived port byte => Sys2Proof.Machine.execStationByteReceived port byte s
  | .frameValidFall port => Sys2Proof.Machine.execFrameValidFall port s
  | .transmissionCompletion => Sys2Proof.Machine.execTransmissionCompletion s
  | .holdOffExpiry => Sys2Proof.Machine.execHoldOffExpiry s
  | .helloDeadlineExpiry => Sys2Proof.Machine.execHelloDeadlineExpiry s
  | .silenceDeadlineExpiry => Sys2Proof.Machine.execSilenceDeadlineExpiry s
  | .keepaliveDeadlineExpiry => Sys2Proof.Machine.execKeepaliveDeadlineExpiry s
  | .advanceDeadlineExpiry level => Sys2Proof.Machine.execAdvanceDeadlineExpiry level s
  | .suspensionDeadlineExpiry level => Sys2Proof.Machine.execSuspensionDeadlineExpiry level s
  | .ageDeadlineExpiry level => Sys2Proof.Machine.execAgeDeadlineExpiry level s
  | .peerDeadlineExpiry localTag => Sys2Proof.Machine.execPeerDeadlineExpiry localTag s
  | .copyBackCompletion => Sys2Proof.Machine.execCopyBackCompletion s
  | .egressFrameStart port => Sys2Proof.Machine.execEgressFrameStart port s
  | .egressCompletion port => Sys2Proof.Machine.execEgressCompletion port s
  | .status => Sys2Proof.Machine.execStatus s
  | .readEntries => Sys2Proof.Machine.execReadEntries s
  | .writeEntry => Sys2Proof.Machine.execWriteEntry s
  | .clearShadow => Sys2Proof.Machine.execClearShadow s
  | .commit => Sys2Proof.Machine.execCommit s
  | .readCounters => Sys2Proof.Machine.execReadCounters s
  | .readEvents => Sys2Proof.Machine.execReadEvents s
  | .ackEvents => Sys2Proof.Machine.execAckEvents s
  | .flushLevel => Sys2Proof.Machine.execFlushLevel s
  | .linkControlDrop => Sys2Proof.Machine.execLinkControlDrop s
  | .linkControlHold => Sys2Proof.Machine.execLinkControlHold s
  | .linkControlRelease => Sys2Proof.Machine.execLinkControlRelease s
  | .trafficRestart => Sys2Proof.Machine.execTrafficRestart s
  | .fullRestart => Sys2Proof.Machine.execFullRestart s
  | .requestPeerForwarding => Sys2Proof.Machine.execRequestPeerForwarding s
  | .startDelimiterArrival => Sys2Proof.Machine.execStartDelimiterArrival s
  | .dataByteArrival byte => Sys2Proof.Machine.execDataByteArrival byte s
  | .supplyBelowOperatingLevel => Sys2Proof.Machine.execSupplyBelowOperatingLevel s

end Sys2Proof.Machine
end

