-- ==== Sys2Proof/Safety.lean ====
section
/-! DEFINITION. What a safe run keeps: the vocabulary of frames (which blocks an event changes), the invariants the
manual states of the part, and the outcomes that several commands share (a DOWN event, a placed reply). The model has no
fault and refuses no command, so safety is that every step answers a next state and keeps these invariants. -/

namespace Sys2Proof.Machine

/-! ### Frames -/

/-- The blocks of the state, one per field. -/
inductive Block where
  | pins | sprs | txPool | sched | trunkTx | reception | link | reasm | rxPool | egress | config | agent | events
  | counters | time | freeCount | pending
  deriving DecidableEq, Repr

/-- A block holds the same in two states. -/
def Block.same (s t : State) : Block → Prop
  | .pins => t.pins = s.pins
  | .sprs => t.sprs = s.sprs
  | .txPool => t.txPool = s.txPool
  | .sched => t.sched = s.sched
  | .trunkTx => t.trunkTx = s.trunkTx
  | .reception => t.reception = s.reception
  | .link => t.link = s.link
  | .reasm => t.reasm = s.reasm
  | .rxPool => t.rxPool = s.rxPool
  | .egress => t.egress = s.egress
  | .config => t.config = s.config
  | .agent => t.agent = s.agent
  | .events => t.events = s.events
  | .counters => t.counters = s.counters
  | .time => t.time = s.time
  | .freeCount => t.freeCount = s.freeCount
  | .pending => t.pending = s.pending

/-- Every block outside a list holds the same in two states. -/
def onlyChanges (changed : List Block) (s t : State) : Prop := ∀ b, b ∉ changed → b.same s t

/-- A counter bank with more events counted in one port counter (R185). -/
def CounterBank.plusPort (b : CounterBank) (p : Port) (c : PortCounter) : CounterBank :=
  { b with port := b.port.set p (raise (b.port.get p) c.position 1) }

/-- A counter bank with some events counted in one level counter. -/
def CounterBank.plusLevel (b : CounterBank) (l : Level) (c : LevelCounter) (n : Nat) : CounterBank :=
  { b with level := b.level.set l (raise (b.level.get l) c.position n) }

def CounterBank.plusTrunk (b : CounterBank) (c : TrunkCounter) : CounterBank :=
  { b with trunk := raise b.trunk c.position 1 }

def CounterBank.plusMgmt (b : CounterBank) (c : MgmtCounter) : CounterBank :=
  { b with mgmt := raise b.mgmt c.position 1 }

/-- The value of one counter of a port, a level, the trunk or the management group (R185). -/
def CounterBank.portAt (b : CounterBank) (p : Port) (c : PortCounter) : Count := (b.port.get p)[c.position]
def CounterBank.levelAt (b : CounterBank) (l : Level) (c : LevelCounter) : Count := (b.level.get l)[c.position]
def CounterBank.trunkAt (b : CounterBank) (c : TrunkCounter) : Count := b.trunk[c.position]
def CounterBank.mgmtAt (b : CounterBank) (c : MgmtCounter) : Count := b.mgmt[c.position]

/-- A port's counter stands at its value before and one more. -/
def portCounted (s t : State) (p : Port) (c : PortCounter) : Prop :=
  t.counters.portAt p c = s.counters.portAt p c + 1#32

/-- A level's counter stands at its value before and some more. -/
def levelCounted (s t : State) (l : Level) (c : LevelCounter) (n : Nat) : Prop :=
  t.counters.levelAt l c = s.counters.levelAt l c + BitVec.ofNat 32 n

def trunkCounted (s t : State) (c : TrunkCounter) : Prop := t.counters.trunkAt c = s.counters.trunkAt c + 1#32

def mgmtCounted (s t : State) (c : MgmtCounter) (n : Nat) : Prop :=
  t.counters.mgmtAt c = s.counters.mgmtAt c + BitVec.ofNat 32 n

/-- The reset pin is not held. -/
def State.running (s : State) : Prop := s.pins.resetHeld = false

/-- The part runs and no execution is due: the mode is DEFERRING or the Management Request Queue is empty (R158). An event
that finds an execution due finds the state that the execution leaves. -/
def State.atRest (s : State) : Prop := s.running ∧ s.agent.headReady = none

/-- The commands that wait for the executions that are due (R158): all but the executions themselves, and the pins that
put the part in reset, release it or tell of its supply, which leave nothing of an execution to be seen (log 2). -/
def waitsForExecutions : Instr → Bool
  | .resetPinAssert _ _ => false
  | .coldStart => false
  | .supplyBelowOperatingLevel => false
  | .status => false
  | .readEntries => false
  | .writeEntry => false
  | .clearShadow => false
  | .commit => false
  | .readCounters => false
  | .readEvents => false
  | .ackEvents => false
  | .flushLevel => false
  | .linkControlDrop => false
  | .linkControlHold => false
  | .linkControlRelease => false
  | .trafficRestart => false
  | .fullRestart => false
  | .requestPeerForwarding => false
  | _ => true

/-! ### Events that have come about inside the part (R186) -/

/-- A deadline is present and the Time Base has reached it (R186, log 4). -/
def passed (now : Time) (deadline : Option Time) : Prop := ∃ d, deadline = some d ∧ (now - d).toNat < 2 ^ 31

/-- The event that a command names is due inside the part: a timer whose deadline has passed, copy-back that has run for
500 µs (log 26), a queued frame that no transmitter sends (log 12). -/
def State.isDue (s : State) : Instr → Prop
  | .holdOffExpiry => s.link.state = .down ∧ passed s.now s.link.holdOff
  | .helloDeadlineExpiry => s.link.state = .hello ∧ passed s.now s.link.helloDeadline
  | .silenceDeadlineExpiry => s.link.state = .up ∧ passed s.now s.link.silenceDeadline
  | .keepaliveDeadlineExpiry => s.link.state = .up ∧ passed s.now s.link.keepaliveDeadline
  | .advanceDeadlineExpiry l => s.link.state = .up ∧ passed s.now (s.link.advanceDeadline.get l)
  | .suspensionDeadlineExpiry l =>
    ∃ above e below, s.sched.stack = above ++ e :: below ∧ (∀ x ∈ above, x.frame.level ≠ l) ∧ e.frame.level = l ∧
      passed s.now e.suspensionDeadline
  | .ageDeadlineExpiry l =>
    ∃ above e below, s.reasm.stack = above ++ e :: below ∧ (∀ x ∈ above, x.level ≠ l) ∧ e.level = l ∧
      passed s.now e.ageDeadline
  | .peerDeadlineExpiry tag => ∃ e ∈ s.agent.peers, e.localTag = tag ∧ passed s.now (some e.deadline)
  | .copyBackCompletion => ∃ began, s.config.copyBack = some began ∧ passed s.now (some (began + 500#32))
  | .egressFrameStart p => (s.egress.get p).state ≠ .sending ∧ (s.egress.get p).queue ≠ []
  | _ => False

/-- No NOTICE can be sent: notices are off in the Active Part Settings, as after a cold start (R140, R183). Under it an
offered event record changes the Event Queue alone. -/
def State.noNotices (s : State) : Prop := s.config.active.part.noticeEnabled = false

/-- One record is offered and there is room for it: it stands at the tail with the next sequence number and the Time
Base (R178, R180). -/
def recordAccepted (s t : State) (k : EventKind) (subject : Subject) (stream : Option Half) (detail : Half) : Prop :=
  s.events.records.length < 31 →
    t.events.nextSeq = s.events.nextSeq + 1#16 ∧
      t.events.records =
        s.events.records ++
          [{ sequence := s.events.nextSeq, time := s.time.timeBase, kind := k, subject := subject, stream := stream
             detail := detail }]

/-! ### The Event Queue (R178, R180) -/

/-- At most 31 ordinary records and one loss record, whose detail is not 0; the sequence numbers rise by one and end just
before the event sequence counter. -/
def EventQueue.kept (q : EventQueue) : Prop :=
  (q.records.filter fun r => decide (r.kind ≠ .eventsLost)).length ≤ 31 ∧
    (q.records.filter fun r => decide (r.kind = .eventsLost)).length ≤ 1 ∧
    (∀ r ∈ q.records, r.kind = .eventsLost → r.detail ≠ 0#16) ∧
    ∀ (i : Nat) (h : i < q.records.length),
      (q.records[i]).sequence = q.nextSeq - BitVec.ofNat 16 (q.records.length - i)

/-! ### The Configuration Store (R136 to R142, R145, R147) -/

/-- Every field of a valid Stream Table entry lies in its range (R136). -/
def StreamEntry.inRange (e : StreamEntry) : Prop := e.stream ≠ 65535#16 ∧ e.trunkStream ≠ some 65535#16

/-- R137. -/
def DeliveryEntry.inRange (e : DeliveryEntry) : Prop := e.stream ≠ 65535#16 ∧ e.egressStream ≠ some 65535#16

/-- R138. -/
def LevelEntry.inRange (e : LevelEntry) : Prop :=
  e.txQueueLimit ≤ 1024 ∧ (e.maxSuspension = 0 ∨ 100 ≤ e.maxSuspension ∧ e.maxSuspension ≤ 65535) ∧
    e.rxAllotment ≤ 1008 ∧ 1 ≤ e.rxAgeLimit ∧ e.rxAgeLimit ≤ 1000

/-- A bank as the Store keeps it: entries by rising index below 512, every field in its range, and no two valid entries
with one key (R136 to R140, R142). -/
def Bank.kept (b : Bank) : Prop :=
  sparseRising b.streams = true ∧ (∀ e ∈ b.streams, e.1 < 512 ∧ e.2.inRange) ∧
    b.streams.Pairwise (fun e f => ¬(e.2.matchPort = f.2.matchPort ∧ e.2.stream = f.2.stream)) ∧
    sparseRising b.deliveries = true ∧ (∀ e ∈ b.deliveries, e.1 < 512 ∧ e.2.inRange) ∧
    b.deliveries.Pairwise (fun e f => e.2.stream ≠ f.2.stream) ∧
    (∀ l, (b.levels.get l).inRange) ∧ (∀ p, (b.ports.get p).egressLimit ≤ 1024) ∧
    1 ≤ b.part.peerTimeout ∧ b.part.peerTimeout ≤ 1000

/-- Both banks are kept, the Active allotments sum to at most 1008, and the generation is never 65535. -/
def ConfigStore.kept (c : ConfigStore) : Prop :=
  c.active.kept ∧ c.shadow.kept ∧ c.active.allotmentSum ≤ 1008 ∧ c.generation ≠ 65535#16

/-! ### The link (R40, R62, R71, R79, R80, R88, R170) -/

/-- A slot that holds no data segment. -/
def holdsNoData : Option Segment → Prop
  | some (.data _) => False
  | some (.control _) => True
  | some (.hello _ _) => True
  | none => True

/-- Whenever the link state is not UP, both open-frame stacks are empty, the Trunk Transmitter holds no latched or
in-flight data segment (R80), and the Pending Peer Table is empty (R170). -/
def State.quietUnlessUp (s : State) : Prop :=
  s.link.state ≠ .up →
    s.sched.stack = [] ∧ s.reasm.stack = [] ∧ holdsNoData s.trunkTx.inFlight ∧ holdsNoData s.trunkTx.latch ∧
      s.agent.peers = []

/-- What the Link Controller holds in each link state: no credit, no limits and no watch outside the states that have
them (R69, R73, R74, R76, R79, R88). -/
def LinkController.recordsFit (k : LinkController) : Prop :=
  (k.state = .down → k.txCredit = Four.all none ∧ k.helloDeadline = none) ∧
    (k.state = .hello → (k.heard = false → k.txCredit = Four.all none) ∧ (k.heard = true → ∀ l, (k.txCredit.get l).isSome) ∧
      k.helloDeadline.isSome) ∧
    (k.state = .up → (∀ l, (k.txCredit.get l).isSome) ∧ k.silenceDeadline.isSome ∧ k.helloDeadline = none) ∧
    (k.state ≠ .up → k.silenceDeadline = none ∧ k.keepaliveDeadline = none ∧ k.lastAdvertised = Four.all none ∧
      k.advanceTime = Four.all none ∧ k.advanceDeadline = Four.all none ∧ k.controlDue = false)

/-- A hold-off deadline runs only on a DOWN link with signal that is not held, and a link that is HELLO or UP has signal
and is not held (R71, R72), whenever the reset pin is not held. -/
def State.lineFits (s : State) : Prop :=
  s.pins.resetHeld = false →
    (s.link.holdOff.isSome → s.link.state = .down) ∧
      (s.link.holdOff.isSome ∨ s.link.state ≠ .down → s.link.signal = true ∧ s.link.held = false)

/-! ### The open-frame stacks (R16, R30, R43) -/

/-- Levels strictly rise from bottom to top, no frame beneath the top is atomic, and each entry's next segment is one of
its frame's, after the first (R16, R30). The top is the head of the list. -/
def txStackKept (stack : List TxEntry) : Prop :=
  stack.Pairwise (fun above below => below.frame.level < above.frame.level) ∧ (∀ e ∈ stack.tail, e.atomic = false) ∧
    ∀ e ∈ stack, e.atomic = e.frame.atomic ∧ 1 ≤ e.nextIndex ∧ e.nextIndex < segmentCount e.frame.frameLength

/-- Levels strictly rise from bottom to top (R43). -/
def rxStackKept (stack : List RxEntry) : Prop := stack.Pairwise fun above below => below.level < above.level

/-- Both stacks are kept, and a frame in a Level Queue is of that queue's level. -/
def State.stacksKept (s : State) : Prop :=
  txStackKept s.sched.stack ∧ rxStackKept s.reasm.stack ∧ ∀ l, ∀ d ∈ s.sched.queues.get l, d.level = l

/-! ### The Management Agent (R155, R170) -/

/-- At most 4 requests of 6 to 256 bytes, and at most 4 entries in the Pending Peer Table, no two with one local tag. -/
def Agent.kept (a : Agent) : Prop :=
  a.requests.length ≤ 4 ∧ (∀ r ∈ a.requests, 6 ≤ r.payload.length ∧ r.payload.length ≤ 256) ∧ a.peers.length ≤ 4 ∧
    a.peers.Pairwise fun e f => e.localTag ≠ f.localTag

/-! ### The pools (R15, R110, R112) -/

def chainNumbers (cells : List PoolCell) : List Nat := cells.map (·.number)

/-- Whether a descriptor is of the level part. -/
def RxDescriptor.inLevelPart (d : RxDescriptor) : Bool :=
  match d.cls with
  | .level _ => true
  | .reserve => false

/-- Descriptors in use of one part, with their numbers. -/
def RxPool.inUse (p : RxPool) (levelPart : Bool) : List (Nat × RxDescriptor) :=
  p.descs.filter fun e => e.2.inLevelPart == levelPart

def RxPool.cellsInUse (p : RxPool) (levelPart : Bool) : List Nat := (p.inUse levelPart).flatMap fun e => chainNumbers e.2.chain

/-- Every cell and every descriptor of a part is on its free list or in use exactly once (R110, R112). -/
def RxPool.kept (p : RxPool) : Prop :=
  sparseRising p.descs = true ∧ (p.levelPart.freeCells ++ p.cellsInUse true).Perm (List.range 1008) ∧
    (p.levelPart.freeDescs ++ (p.inUse true).map (·.1)).Perm (List.range 124) ∧
    (p.reserve.freeCells ++ p.cellsInUse false).Perm (List.range' 1008 16) ∧
    (p.reserve.freeDescs ++ (p.inUse false).map (·.1)).Perm (List.range' 124 4)

/-- The TX descriptors outside reception: in a Level Queue, on the TX Open-Frame Stack, or in the Trunk Transmitter, each
counted where it is (R15). -/
def State.txFrames (s : State) : List TxDescriptor :=
  (fourIndices.flatMap fun l => s.sched.queues.get l) ++ s.sched.stack.map (·.frame) ++ slotFrame s.trunkTx.inFlight ++
    slotFrame s.trunkTx.latch

/-- The descriptor and cells of a frame in reception. -/
def Spr.descriptorHeld (r : Spr) : List Nat :=
  match r.state with
  | .receiving n => [n]
  | .idle => []
  | .dropping _ => []
  | .skipping => []

def Spr.cellsHeld (r : Spr) : List Nat :=
  match r.state with
  | .receiving _ => chainNumbers r.cells
  | .idle => []
  | .dropping _ => []
  | .skipping => []

/-- Every TX descriptor and every TXP cell is free or in exactly one place (R15, R110). -/
def State.txPoolKept (s : State) : Prop :=
  (s.txPool.freeDescs ++ (fourIndices.flatMap fun p => (s.sprs.get p).descriptorHeld) ++ s.txFrames.map (·.number)).Perm
      (List.range 128) ∧
    (s.txPool.freeCells ++ (fourIndices.flatMap fun p => (s.sprs.get p).cellsHeld) ++
          s.txFrames.flatMap fun d => chainNumbers d.cells).Perm
      (List.range 1024)

/-! ### Selection (R20, R28) -/

/-- A level has credit for one segment: its limit is valid and ahead of its next sequence number (R28). -/
def State.mayCarry (s : State) (l : Level) : Prop :=
  ∃ limit, s.link.txCredit.get l = some limit ∧ 1 ≤ (limit - s.sched.nextSeq.get l).toNat ∧
    (limit - s.sched.nextSeq.get l).toNat ≤ 32767

/-- A new frame may start at a level: its queue is not empty, it has credit, and it lies above the top frame, if any, with
preemption allowed: the top is not atomic, its level is preemptible, and no open frame is protected (R20). -/
def State.mayStart (s : State) (l : Level) : Prop :=
  s.sched.queues.get l ≠ [] ∧ s.mayCarry l ∧
    ∀ top below, s.sched.stack = top :: below →
      top.frame.level < l ∧ top.atomic = false ∧ (s.config.active.levels.get top.frame.level).preemptible = true ∧
        ∀ e ∈ s.sched.stack, e.protectedMark = false

/-- The segment a selection has placed: latched, or in flight when the line was idle (R11). -/
def TrunkTx.placed (t : TrunkTx) : Option Segment :=
  match t.latch with
  | some g => some g
  | none => t.inFlight

/-- A selection trigger is taken: with the link UP and the latch empty a selection is made, and the start of the segment it
places on an idle line makes another; otherwise nothing is selected (R11, R17). -/
def selectionFollows (u t : State) : Prop :=
  (u.link.state ≠ .up ∨ u.trunkTx.latch ≠ none → t = u) ∧
    (u.link.state = .up → u.trunkTx.latch = none → u.trunkTx.inFlight ≠ none → t = u.select) ∧
    (u.link.state = .up → u.trunkTx.latch = none → u.trunkTx.inFlight = none → t = u.select.select)

/-- An exhaustion-reported flag after a return that leaves these free lists: cleared by 64 cells and 8 descriptors (R107,
R119). -/
def flagAfterReturn (cells descs : List Nat) (before after : Bool) : Prop :=
  (64 ≤ cells.length → 8 ≤ descs.length → after = false) ∧
    (cells.length < 64 ∨ descs.length < 8 → after = before)

/-! ### Credit reports (R84, R85) -/

/-- A 16-bit number is ahead of another, by 1 to 32767. -/
def isAhead (a b : Half) : Prop := 1 ≤ (a - b).toNat ∧ (a - b).toNat ≤ 32767

/-- A level reported has a limit ahead of its last-advertised one and no advance time yet (R85). -/
def startsAdvance (k : LinkController) (limit : Half) (l : Level) : Prop :=
  k.advanceTime.get l = none ∧ ∃ a, k.lastAdvertised.get l = some a ∧ isAhead limit a

/-- The Link Controller after the reports of some levels: a limit ahead starts the advance time and its deadline 200 µs on,
and one ahead by 8 or more makes a CONTROL due; nothing else moves (R85). -/
def limitsReported (now : Time) (limit : Level → Half) (reported : Level → Prop) (k k' : LinkController) : Prop :=
  k' =
      { k with
        advanceTime := k'.advanceTime, advanceDeadline := k'.advanceDeadline, controlDue := k'.controlDue } ∧
    (∀ l, reported l → startsAdvance k (limit l) l →
      k'.advanceTime.get l = some now ∧ k'.advanceDeadline.get l = some (now + 200#32)) ∧
    (∀ l, ¬(reported l ∧ startsAdvance k (limit l) l) →
      k'.advanceTime.get l = k.advanceTime.get l ∧ k'.advanceDeadline.get l = k.advanceDeadline.get l) ∧
    (k'.controlDue = true ↔
      k.controlDue = true ∨
        ∃ l a, reported l ∧ k.lastAdvertised.get l = some a ∧ isAhead (limit l) a ∧ 8 ≤ (limit l - a).toNat)

/-- An event moves what a level's limit is worked out from: e(L) or the cells held at L (R61, R115). -/
def State.limitMoves (s u : State) (l : Level) : Prop :=
  u.expectedAt l ≠ s.expectedAt l ∨ u.heldCells l ≠ s.heldCells l

/-- The reports of an event, taken when it is whole (log 15): k is the Link Controller without them, u the state with them,
and a CONTROL that they make due is a selection trigger (R17, R85). -/
def reportsTaken (s : State) (k : LinkController) (u t : State) : Prop :=
  (s.link.state = .up → limitsReported s.now u.computedLimit (s.limitMoves u) k u.link) ∧
    (s.link.state ≠ .up → u.link = k) ∧ (k.controlDue = true ∨ u.link.controlDue = false → t = u) ∧
    (k.controlDue = false → u.link.controlDue = true → selectionFollows u t)

/-! ### Segments on arrival (R9) -/

/-- A good segment is what some bytes say: every check of R9 passes on them, and each field is read from its place (R1, R2,
R190). -/
def GoodSegment.saidBy (g : GoodSegment) (bs : List Byte) : Prop :=
  ∃ kind p header : Nat, (byteAt bs 0).toNat / 16 = kind ∧ (byteAt bs 0).toNat / 4 % 4 = 0 ∧ (byteAt bs 4).toNat = p ∧
    bs.length = header + p + 2 ∧ crc16 (bs.take (bs.length - 2)) = halfAt bs (bs.length - 2) ∧
    match g with
    | .data d =>
      d.level.val = (byteAt bs 0).toNat % 4 ∧ d.tag = byteAt bs 1 ∧ d.seq = halfAt bs 2 ∧
        d.payload = (bs.drop header).take p ∧
        (d.kind = .start ∨ d.kind = .whole → header = 9 ∧ d.stream = halfAt bs 5 ∧ d.length = (halfAt bs 7).toNat) ∧
        (d.kind = .middle ∨ d.kind = .end_ → header = 5 ∧ d.stream = 0#16 ∧ d.length = 0) ∧
        (d.kind = .start → kind = 1 ∧ p = 64 ∧ 65 ≤ d.length ∧ d.length ≤ 1536) ∧
        (d.kind = .middle → kind = 2 ∧ p = 64) ∧ (d.kind = .end_ → kind = 3 ∧ 1 ≤ p ∧ p ≤ 64) ∧
        (d.kind = .whole → kind = 4 ∧ 1 ≤ p ∧ p ≤ 64 ∧ d.length = p)
    | .control q => kind = 8 ∧ p = 8 ∧ header = 5 ∧ q = ⟨halfAt bs 5, halfAt bs 7, halfAt bs 9, halfAt bs 11⟩
    | .hello heardYou q =>
      kind = 9 ∧ p = 9 ∧ header = 5 ∧ byteAt bs 5 = (if heardYou then 1#8 else 0#8) ∧
        q = ⟨halfAt bs 6, halfAt bs 8, halfAt bs 10, halfAt bs 12⟩

/-! ### Arriving data segments (R43 to R60) -/

/-- A good data segment ends its reception while the link is UP and no execution is due; e of each level is given. -/
def State.receives (s : State) (d : RxData) (expected : Four Half) : Prop :=
  s.atRest ∧ s.link.state = .up ∧ s.reasm.expected = some expected ∧
    ∃ r, s.reception = some r ∧ r.overlength = false ∧ checkSegment r.bytes = some (.data d)

/-- Numbers of the cells an open frame holds, in chain order. -/
def State.cellsOf (s : State) (e : RxEntry) : List Nat :=
  match e.descriptor.bind s.rxPool.desc with
  | none => []
  | some f => chainNumbers f.chain

/-- The descriptors of some open frames. -/
def descsOf (es : List RxEntry) : List Nat := es.filterMap (·.descriptor)

/-- Each of some open frames holds a descriptor of its own, or none, in use at its level (R48). -/
def State.holdApart (s : State) (es : List RxEntry) : Prop :=
  sparseRising s.rxPool.descs = true ∧ (descsOf es).Nodup ∧
    ∀ e ∈ es, ∀ n ∈ e.descriptor,
      n ∉ s.rxPool.reserve.freeDescs ∧ (s.rxPool.desc n).map (·.cls) = some (.level e.level)

/-- No descriptor on the reserve's free list is in use, as in every state that a run reaches (R112, RxPool.kept). -/
def State.reserveUnused (s : State) : Prop := ∀ m ∈ s.rxPool.reserve.freeDescs, s.rxPool.desc m = none

/-- An abort as it is counted and recorded (R56). -/
structure Aborted where
  level : Level
  stream : Half
  reason : AbortReason
  deriving DecidableEq, Repr

/-- Open frames aborted by a rule: each reports its first discarding reason, or else the rule's (R56). -/
def abortedFor (r : AbortReason) (es : List RxEntry) : List Aborted :=
  es.map fun e => { level := e.level, stream := e.stream, reason := e.discarding.getD r }

/-- Each abort is counted once, at its level and for its reason (R56). -/
def abortsCounted (s t : State) (gone : List Aborted) : Prop :=
  ∀ l c, levelCounted s t l (.aborts c) (gone.countP fun a => decide (a.level = l ∧ a.reason = c))

/-- What an event record says, its number and time aside. -/
structure Told where
  kind : EventKind
  subject : Subject
  stream : Option Half
  detail : Half
  deriving DecidableEq, Repr

/-- The RX_ABORT record of an abort (R56). -/
def Aborted.told (a : Aborted) : Told :=
  { kind := .rxAbort, subject := .level a.level, stream := some a.stream, detail := BitVec.ofNat 16 a.reason.code }

/-- What a failed claim of a descriptor tells: POOL_EXHAUSTED, when the flag was clear (R48, R118). -/
def State.descRefusedTold (s : State) (d : RxData) : List Told :=
  if s.rxPool.exhaustionReported then []
  else [{ kind := .poolExhausted, subject := .level d.level, stream := some d.stream, detail := 257#16 }]

/-- What a failed claim of a cell tells: CREDIT_VIOLATION when the cells held reach the allotment, else POOL_EXHAUSTED when
the flag was clear (R49, R118). -/
def State.cellRefusedTold (s : State) (d : RxData) (stream : Half) (held : Nat) : List Told :=
  if s.link.allotment.get d.level ≤ held then
    [{ kind := .creditViolation, subject := .level d.level, stream := some stream, detail := d.seq }]
  else if s.rxPool.exhaustionReported then []
  else [{ kind := .poolExhausted, subject := .level d.level, stream := some stream, detail := 258#16 }]

/-- Each CREDIT_VIOLATION told is counted at its level (R49). -/
def violationsCounted (s t : State) (l : Level) (told : List Told) : Prop :=
  levelCounted s t l .creditViolations (told.countP fun x => decide (x.kind = .creditViolation))

/-- Records are offered and there is room for all: they stand at the tail in order, with rising sequence numbers and the
Time Base; with none offered the queue is untouched (R178, R180). -/
def recordsTold (s t : State) (told : List Told) : Prop :=
  told = [] ∨ s.events.records.length + told.length ≤ 31 →
    t.events =
      { records :=
          s.events.records ++
            told.mapIdx fun i x =>
              { sequence := s.events.nextSeq + BitVec.ofNat 16 i, time := s.time.timeBase, kind := x.kind
                subject := x.subject, stream := x.stream, detail := x.detail }
        nextSeq := s.events.nextSeq + BitVec.ofNat 16 told.length }

/-- The setting in which a START or WHOLE in sequence is placed: the frames open at its level or above are to go, those
below stay; with the free lists of the level part, and the level's held cells, as the aborts leave them; the descriptor next
to be claimed is in no other use (R50, R51). -/
def State.opensAt (s : State) (d : RxData) (expected : Four Half) (gone kept : List RxEntry) (part : RxPart)
    (held : Nat) : Prop :=
  s.receives d expected ∧ d.seq = expected.get d.level ∧ s.reasm.stack = gone ++ kept ∧
    (∀ e ∈ gone, d.level ≤ e.level) ∧ (∀ e ∈ kept, e.level < d.level) ∧ s.holdApart gone ∧
    part.freeCells = s.rxPool.levelPart.freeCells ++ gone.flatMap s.cellsOf ∧
    part.freeDescs = s.rxPool.levelPart.freeDescs ++ descsOf gone ∧
    held =
      s.heldCells d.level - ((gone.filter fun e => decide (e.level = d.level)).flatMap s.cellsOf).length ∧
    ∀ n ∈ part.freeDescs.head?,
      n ∉ s.rxPool.reserve.freeDescs ∧ (n ∈ descsOf gone ∨ s.rxPool.desc n = none)

/-- The setting in which a MIDDLE or END in sequence finds a frame open at its level, with the frames above it, which are
to go, and the free lists of the level part as their aborts leave them (R52). -/
def State.continuesAt (s : State) (d : RxData) (expected : Four Half) (above : List RxEntry) (e : RxEntry)
    (below : List RxEntry) (part : RxPart) : Prop :=
  s.receives d expected ∧ (d.kind = .middle ∨ d.kind = .end_) ∧ d.seq = expected.get d.level ∧
    s.reasm.stack = above ++ e :: below ∧ (∀ x ∈ above, d.level < x.level) ∧ e.level = d.level ∧
    (∀ x ∈ below, x.level < d.level) ∧ s.holdApart (above ++ [e]) ∧
    part.freeCells = s.rxPool.levelPart.freeCells ++ above.flatMap s.cellsOf ∧
    part.freeDescs = s.rxPool.levelPart.freeDescs ++ descsOf above

/-- No Egress Queue holds one of some descriptors. -/
def State.notQueued (s : State) (ns : List Nat) : Prop := ∀ p, ∀ n ∈ (s.egress.get p).queue, n ∉ ns

/-- A complete user frame has been handed on: each port of its stream's port set takes it when it is enabled and has room,
and counts an egress drop otherwise; the frame carries the output stream number and one reference per port that took it, or
goes back to the level part when none did (R60, R116, R121, R122, R123). -/
def userFrameDelivered (s t : State) (l : Level) (n : Nat) (f : RxDescriptor) (part : RxPart) : Prop :=
  ∃ (ports : Four Bool) (stream : Half) (takes : Four Bool),
    (∀ e ∈ s.config.active.deliveries.map (·.2), e.stream = f.stream →
      (∀ x ∈ s.config.active.deliveries.map (·.2), x.stream = f.stream → x = e) →
        ports = e.portMask ∧ stream = e.egressStream.getD f.stream) ∧
    ((∀ e ∈ s.config.active.deliveries.map (·.2), e.stream ≠ f.stream) →
      ports = s.config.active.part.unknownMask ∧ stream = f.stream) ∧
    (∀ p, takes.get p =
      (ports.get p && (s.config.active.ports.get p).enabled &&
        decide (s.egressCells p + f.chain.length ≤ (s.config.active.ports.get p).egressLimit))) ∧
    (∀ p, takes.get p = true →
      (t.egress.get p).queue = (s.egress.get p).queue ++ [n] ∧ (t.egress.get p).state ≠ .idle) ∧
    (∀ p, takes.get p = false → t.egress.get p = s.egress.get p) ∧
    (∀ p, takes.get p = false → ports.get p = true → portCounted s t p .egressDrops) ∧
    (∀ p, takes.get p = true ∨ ports.get p = false → t.counters.port.get p = s.counters.port.get p) ∧
    levelCounted s t l .framesDelivered 1 ∧
    ((∀ p, takes.get p = false) →
      t.rxPool.desc n = none ∧
        t.rxPool.levelPart =
          { freeCells := part.freeCells ++ chainNumbers f.chain, freeDescs := part.freeDescs ++ [n] }) ∧
    ((∃ p, takes.get p = true) →
      t.rxPool.levelPart = part ∧
        t.rxPool.desc n =
          some
            { f with
              stream := stream
              holder := .egress
              refCount := (fourIndices.filter takes.get).length })

/-- A frame of the Receive Pool's level part has gone back to it, its descriptor after its cells (R117). -/
def releasedTo (t : State) (n : Nat) (f : RxDescriptor) (part : RxPart) : Prop :=
  t.rxPool.desc n = none ∧
    t.rxPool.levelPart = { freeCells := part.freeCells ++ chainNumbers f.chain, freeDescs := part.freeDescs ++ [n] }

/-- The reason for which a management payload from the trunk is dropped: SHORT, LONG, QUEUE_FULL or TYPE, the first row that
applies (R156). -/
def payloadRefused (queued : Nat) (payload : List Byte) (reason : Nat) : Prop :=
  (payload.length < 3 ∧ reason = 1) ∨ (256 < payload.length ∧ reason = 2) ∨
    (3 ≤ payload.length ∧ payload.length ≤ 256 ∧
      ((byteAt payload 2 = 2#8 ∧ payload.length < 5 ∧ reason = 1) ∨ (2 < (byteAt payload 2).toNat ∧ reason = 4) ∨
        ((byteAt payload 2).toNat ≤ 1 ∧ payload.length < 6 ∧ reason = 1) ∨
        ((byteAt payload 2).toNat ≤ 1 ∧ 6 ≤ payload.length ∧ 4 ≤ queued ∧ reason = 3)))

/-- A pending peer request that a reply answers: its local tag and its command are the reply's (R172). -/
def PeerEntry.answeredBy (e : PeerEntry) (payload : List Byte) : Prop :=
  e.localTag.setWidth 16 = halfAt payload 0 ∧ e.command = byteAt payload 3

/-- A complete frame of stream 65535 has been handed to the Agent, after some records. A payload refused is dropped, counted
and recorded; a request joins the queue with the link generation; a reply that answers a pending entry is relayed to its
requester under the original tag and the reply stream, in the cells it came in; any other reply is late. All but the relayed
frame go back to the level part (R60, R116, R121, R156, R157, R172). -/
def mgmtFrameDelivered (s t : State) (l : Level) (n : Nat) (f : RxDescriptor) (part : RxPart) (told : List Told) : Prop :=
  levelCounted s t l .framesDelivered 1 ∧
    ∀ payload, payload = chainBytes f.chain →
      (∀ reason, payloadRefused s.agent.requests.length payload reason →
        mgmtCounted s t .droppedRequests 1 ∧ t.agent = { s.agent with noticeLatch := t.agent.noticeLatch } ∧
          releasedTo t n f part ∧
          recordsTold s t
            (told ++
              [{ kind := .mgmtDropped, subject := .none, stream := none, detail := BitVec.ofNat 16 reason }])) ∧
      (6 ≤ payload.length → payload.length ≤ 256 → (byteAt payload 2).toNat ≤ 1 → s.agent.requests.length < 4 →
        mgmtCounted s t .requests 1 ∧
          t.agent =
            { s.agent with
              requests := s.agent.requests ++ [{ source := .trunk s.link.generation, payload := payload }] } ∧
          releasedTo t n f part ∧ recordsTold s t told) ∧
      (5 ≤ payload.length → payload.length ≤ 256 → byteAt payload 2 = 2#8 →
        (∀ older e newer, s.agent.peers = older ++ e :: newer → e.answeredBy payload →
          (∀ x ∈ older, ¬x.answeredBy payload) → (∀ c ∈ f.chain.head?, 2 ≤ c.bytes.length) →
            mgmtCounted s t .replies 1 ∧ t.agent = { s.agent with peers := older ++ newer } ∧
              t.rxPool.levelPart = part ∧ recordsTold s t told ∧
              (∃ chain,
                t.rxPool.desc n =
                    some { f with stream := e.replyStream, chain := chain, holder := .egress, refCount := 1 } ∧
                  chainNumbers chain = chainNumbers f.chain ∧
                  chainBytes chain = halfBytes e.originalTag ++ payload.drop 2) ∧
              (t.egress.get e.port).queue = (s.egress.get e.port).queue ++ [n] ∧
              (t.egress.get e.port).state =
                (if (s.egress.get e.port).state = .idle then .sending else (s.egress.get e.port).state) ∧
              ∀ q, q ≠ e.port → t.egress.get q = s.egress.get q) ∧
        ((∀ e ∈ s.agent.peers, ¬e.answeredBy payload) →
          mgmtCounted s t .lateReplies 1 ∧ t.agent = { s.agent with noticeLatch := t.agent.noticeLatch } ∧
            releasedTo t n f part ∧
            recordsTold s t
              (told ++ [{ kind := .lateReply, subject := .none, stream := none, detail := halfAt payload 0 }])))

/-! ### Entries as they are written (R136 to R141, R192) -/

/-- The Stream Table entry that eight bytes say. -/
def StreamEntry.writtenAs (e : StreamEntry) (bs : List Byte) : Prop :=
  e =
    { matchPort := if byteAt bs 1 = 0x0F#8 then .any else .port (Fin.ofNat 4 (byteAt bs 1).toNat)
      stream := halfAt bs 4, action := if (byteAt bs 0).getLsbD 5 then .drop else .forward
      level := Fin.ofNat 4 (byteAt bs 2).toNat, atomic := (byteAt bs 0).getLsbD 6
      trunkStream := if (byteAt bs 0).getLsbD 4 then some (halfAt bs 6) else none }

/-- A valid Stream Table entry that fails check 4: a bit or byte that should be 0, a match port or level without meaning, or
the management stream as a stream number that is present (R136, R141, R192). -/
def streamInvalid (bs : List Byte) : Prop :=
  (byteAt bs 0).toNat % 16 ≠ 0 ∨ (4 ≤ (byteAt bs 1).toNat ∧ byteAt bs 1 ≠ 0x0F#8) ∨ 4 ≤ (byteAt bs 2).toNat ∨
    byteAt bs 3 ≠ 0#8 ∨ halfAt bs 4 = 65535#16 ∨ ((byteAt bs 0).getLsbD 4 = true ∧ halfAt bs 6 = 65535#16)

def DeliveryEntry.writtenAs (e : DeliveryEntry) (bs : List Byte) : Prop :=
  e =
    { stream := halfAt bs 2
      portMask :=
        ⟨(byteAt bs 1).getLsbD 0, (byteAt bs 1).getLsbD 1, (byteAt bs 1).getLsbD 2, (byteAt bs 1).getLsbD 3⟩
      egressStream := if (byteAt bs 0).getLsbD 6 then some (halfAt bs 4) else none }

/-- A valid Delivery Table entry that fails check 4; a port mask byte above 15 is one by the model's choice (R137, R141, R192,
log 35). -/
def deliveryInvalid (bs : List Byte) : Prop :=
  (byteAt bs 0).toNat % 64 ≠ 0 ∨ 16 ≤ (byteAt bs 1).toNat ∨ halfAt bs 2 = 65535#16 ∨
    ((byteAt bs 0).getLsbD 6 = true ∧ halfAt bs 4 = 65535#16)

def LevelEntry.writtenAs (e : LevelEntry) (bs : List Byte) : Prop :=
  e =
    { txQueueLimit := (halfAt bs 0).toNat, preemptible := (byteAt bs 2).getLsbD 7
      maxSuspension := (halfAt bs 4).toNat, rxAllotment := (halfAt bs 6).toNat, retain := (byteAt bs 2).getLsbD 6
      rxAgeLimit := (halfAt bs 8).toNat }

/-- A Level Table entry that fails check 4 (R138, R141, R192). -/
def levelInvalid (bs : List Byte) : Prop :=
  1024 < (halfAt bs 0).toNat ∨ (byteAt bs 2).toNat % 64 ≠ 0 ∨ byteAt bs 3 ≠ 0#8 ∨
    (halfAt bs 4 ≠ 0#16 ∧ (halfAt bs 4).toNat < 100) ∨ 1008 < (halfAt bs 6).toNat ∨ halfAt bs 8 = 0#16 ∨
    1000 < (halfAt bs 8).toNat ∨ byteAt bs 10 ≠ 0#8 ∨ byteAt bs 11 ≠ 0#8

def PortSettings.writtenAs (e : PortSettings) (bs : List Byte) : Prop :=
  e =
    { enabled := (byteAt bs 0).getLsbD 7
      defaultAction := if (byteAt bs 0).getLsbD 6 then .drop else .forward
      defaultLevel := Fin.ofNat 4 (byteAt bs 1).toNat, mgmtPermitted := (byteAt bs 0).getLsbD 5
      egressLimit := (halfAt bs 2).toNat }

/-- A Port Settings record that fails check 4 (R139, R141, R192). -/
def portInvalid (bs : List Byte) : Prop :=
  (byteAt bs 0).toNat % 32 ≠ 0 ∨ 4 ≤ (byteAt bs 1).toNat ∨ 1024 < (halfAt bs 2).toNat

def PartSettings.writtenAs (e : PartSettings) (bs : List Byte) : Prop :=
  e =
    { noticeEnabled := (byteAt bs 0).getLsbD 7, noticePort := Fin.ofNat 4 (byteAt bs 1).toNat
      noticeStream := halfAt bs 2
      noticeThreshold := if byteAt bs 4 = 1#8 then .info else if byteAt bs 4 = 2#8 then .warning else .error
      remoteMgmt := (byteAt bs 0).getLsbD 6, mgmtLevel := Fin.ofNat 4 (byteAt bs 5).toNat
      peerTimeout := (halfAt bs 6).toNat
      unknownMask :=
        ⟨(byteAt bs 8).getLsbD 0, (byteAt bs 8).getLsbD 1, (byteAt bs 8).getLsbD 2, (byteAt bs 8).getLsbD 3⟩ }

/-- A Part Settings record that fails check 4; a port mask byte above 15 is one by the model's choice (R140, R141, R192,
log 35). -/
def partInvalid (bs : List Byte) : Prop :=
  (byteAt bs 0).toNat % 64 ≠ 0 ∨ 4 ≤ (byteAt bs 1).toNat ∨ byteAt bs 4 = 0#8 ∨ 3 < (byteAt bs 4).toNat ∨
    4 ≤ (byteAt bs 5).toNat ∨ halfAt bs 6 = 0#16 ∨ 1000 < (halfAt bs 6).toNat ∨ 16 ≤ (byteAt bs 8).toNat ∨
    byteAt bs 9 ≠ 0#8

/-- The bytes in which READ ENTRIES returns each entry; an invalid Stream or Delivery Table entry is all zeros, and a stream
number that is not present is 0 (R142, R162, R192). -/
def Bank.laidOut (b : Bank) (table : Table) (i : Nat) (bs : List Byte) : Prop :=
  match table with
  | .streams =>
    (sparseGet i b.streams = none → bs = List.replicate 8 0#8) ∧
      ∀ e, sparseGet i b.streams = some e →
        bs =
          [0x80#8 ||| (if e.atomic then 0x40#8 else 0#8) ||| (if e.action = .drop then 0x20#8 else 0#8) |||
              (if e.trunkStream.isSome then 0x10#8 else 0#8),
            match e.matchPort with | .port p => BitVec.ofNat 8 p.val | .any => 0x0F#8, BitVec.ofNat 8 e.level.val, 0#8] ++
            halfBytes e.stream ++ halfBytes (e.trunkStream.getD 0#16)
  | .deliveries =>
    (sparseGet i b.deliveries = none → bs = List.replicate 6 0#8) ∧
      ∀ e, sparseGet i b.deliveries = some e →
        bs =
          [0x80#8 ||| (if e.egressStream.isSome then 0x40#8 else 0#8),
            (if e.portMask.get 0 then 1#8 else 0#8) ||| (if e.portMask.get 1 then 2#8 else 0#8) |||
              (if e.portMask.get 2 then 4#8 else 0#8) ||| (if e.portMask.get 3 then 8#8 else 0#8)] ++
            halfBytes e.stream ++ halfBytes (e.egressStream.getD 0#16)
  | .levels =>
    ∀ (l : Level) (e : LevelEntry), l.val = i → e = b.levels.get l →
      bs =
        halfBytes (BitVec.ofNat 16 e.txQueueLimit) ++
          [(if e.preemptible then 0x80#8 else 0#8) ||| (if e.retain then 0x40#8 else 0#8), 0#8] ++
          halfBytes (BitVec.ofNat 16 e.maxSuspension) ++ halfBytes (BitVec.ofNat 16 e.rxAllotment) ++
          halfBytes (BitVec.ofNat 16 e.rxAgeLimit) ++ [0#8, 0#8]
  | .ports =>
    ∀ (p : Port) (e : PortSettings), p.val = i → e = b.ports.get p →
      bs =
        [(if e.enabled then 0x80#8 else 0#8) ||| (if e.defaultAction = .drop then 0x40#8 else 0#8) |||
            (if e.mgmtPermitted then 0x20#8 else 0#8), BitVec.ofNat 8 e.defaultLevel.val] ++
          halfBytes (BitVec.ofNat 16 e.egressLimit)
  | .part =>
    ∀ e, e = b.part →
      bs =
        [(if e.noticeEnabled then 0x80#8 else 0#8) ||| (if e.remoteMgmt then 0x40#8 else 0#8),
          BitVec.ofNat 8 e.noticePort.val] ++ halfBytes e.noticeStream ++
          [match e.noticeThreshold with | .info => 1#8 | .warning => 2#8 | .error => 3#8,
            BitVec.ofNat 8 e.mgmtLevel.val] ++ halfBytes (BitVec.ofNat 16 e.peerTimeout) ++
          [(if e.unknownMask.get 0 then 1#8 else 0#8) ||| (if e.unknownMask.get 1 then 2#8 else 0#8) |||
              (if e.unknownMask.get 2 then 4#8 else 0#8) ||| (if e.unknownMask.get 3 then 8#8 else 0#8), 0#8]

/-- Code, number of entries and bytes of an entry of each table; an unknown code names no entry and no bytes (R191, R192). -/
def tableShape (code size length : Nat) : Prop :=
  (code, size, length) ∈ [(1, 512, 8), (2, 512, 6), (3, 4, 12), (4, 4, 4), (5, 1, 10)] ∨
    ((code = 0 ∨ 5 < code) ∧ size = 0 ∧ length = 0)

/-! ### Outcomes that several commands share -/

/-- A good segment noted while UP: the silence deadline is 2 ms on, the good run rises, and 16 in a row take one off the
error budget (R77, R78). -/
def LinkController.sawGood (k : LinkController) (now : Time) (k' : LinkController) : Prop :=
  k' =
    { k with
      silenceDeadline := some (now + 2000#32)
      goodRun := if k.goodRun = 15 then 0 else k.goodRun + 1
      errorBudget := if k.goodRun = 15 then k.errorBudget - 1 else k.errorBudget }

/-- The link enters UP, before the selection this triggers and before a data segment or CONTROL that brought it is taken: the
generation rises, the allotments are loaded, the last HELLO that started gives the last-advertised limits, which are compared
with e(L) = 0 and the free cells, the watches are set, the numbers start at 0, a latched HELLO is removed and LINK_UP is
recorded. The good run is given with the segment that brought it (R4, R5, R44, R76, R83, R85). -/
def State.entersUp (s : State) (credit : Four (Option Half)) (run : Nat) (u : State) : Prop :=
  (∃ k,
    k =
        { s.link with
          state := .up
          generation := s.link.generation + 1#16
          allotment := Four.make fun l => (s.config.active.levels.get l).rxAllotment
          lastAdvertised := u.link.lastAdvertised
          advanceTime := Four.all none
          advanceDeadline := Four.all none
          controlDue := false
          errorBudget := 0
          goodRun := run
          silenceDeadline := some (s.now + 2000#32)
          keepaliveDeadline := some (s.now + 250#32)
          helloDeadline := none
          txCredit := credit
          heard := true } ∧
      limitsReported s.now (fun l => BitVec.ofNat 16 ((s.config.active.levels.get l).rxAllotment - s.heldCells l))
        (fun _ => True) k u.link) ∧
    (∀ q, s.trunkTx.lastHello = some q → ∀ l, u.link.lastAdvertised.get l = some (q.get l)) ∧
    u.sched = { s.sched with nextTag := Four.all 0#8, nextSeq := Four.all 0#16 } ∧
    u.reasm = { s.reasm with expected := some (Four.all 0#16) } ∧
    (∀ h q, s.trunkTx.latch = some (.hello h q) → u.trunkTx = { s.trunkTx with latch := none }) ∧
    ((∀ h q, s.trunkTx.latch ≠ some (.hello h q)) → u.trunkTx = s.trunkTx) ∧ u.reception = none ∧
    trunkCounted s u .segmentsReceived ∧ recordAccepted s u .linkUp .none none (s.link.generation + 1#16) ∧
    (s.noNotices → onlyChanges [.reception, .counters, .link, .sched, .trunkTx, .reasm, .events, .freeCount] s u) ∧
    onlyChanges
      [.reception, .counters, .link, .sched, .trunkTx, .reasm, .rxPool, .egress, .agent, .events, .freeCount] s u

/-- A good segment has been taken as in UP in a state u that has noted and counted it already: t is what the segment leaves
when it ends its reception in a state v that differs from u by its reception, its count and its mark in the good run (R75). -/
def segmentTaken (r : Reception) (g : GoodSegment) (u t : State) : Prop :=
  ∃ v, v.reception = some r ∧ v.link.state = .up ∧ onlyChanges [.reception, .counters, .link] u v ∧
    v.link.sawGood u.now u.link ∧
    ((∀ q, g ≠ .control q) → u.counters = v.counters.plusTrunk .segmentsReceived) ∧
    (∀ q, g = .control q → u.counters = (v.counters.plusTrunk .segmentsReceived).plusTrunk .controlReceived) ∧
    exec (.segmentReceptionEnd .endDelimiter) v = .next t

/-- The Link Controller after a DOWN event (R79): the hold-off runs when the signal is present and the link is not held.
The line signal, held, the link generation, the Link Allotment Record, the error budget and the good run stay. -/
def LinkController.wentDown (k : LinkController) (now : Time) (cause : LinkCause) (k' : LinkController) : Prop :=
  k' =
    { k with
      state := .down
      lastCause := cause
      holdOff := if k.signal = true ∧ k.held = false then some (now + 10000#32) else none
      heard := false
      helloDeadline := none
      silenceDeadline := none
      keepaliveDeadline := none
      txCredit := Four.all none
      lastAdvertised := Four.all none
      advanceTime := Four.all none
      advanceDeadline := Four.all none
      controlDue := false }

/-- A DOWN event has settled everything: nothing is half-sent or half-received, no number is expected, no peer request is
pending, and the event is counted and recorded first; the line of a running part carries the end delimiter of a segment
cut off, and idle fill otherwise (R12, R79, R80, R174). -/
def settledDown (s t : State) (cause : LinkCause) : Prop :=
  t.sched.stack = [] ∧ t.trunkTx.inFlight = none ∧ t.trunkTx.latch = none ∧
    (t.running →
      t.trunkTransmitLine =
        if s.trunkTx.inFlight.isSome = true ∨ s.trunkTx.cutOff = true then .endDelimiter else .idleFill) ∧
    t.reasm.stack = [] ∧ t.reasm.expected = none ∧ t.agent.peers = [] ∧ trunkCounted s t (.linkDowns cause) ∧
    (s.events.records.length < 31 →
      t.events.records[s.events.records.length]? =
        some
          { sequence := s.events.nextSeq, time := s.time.timeBase, kind := .linkDown, subject := .none, stream := none
            detail := BitVec.ofNat 16 cause.code })

/-- No command waits for a reply on the trunk, so a DOWN event releases none (R169). -/
def State.noCommandOnTrunk (s : State) : Prop := ∀ c n, s.agent.mode ≠ .deferring c (.trunk n)

/-- What every DOWN event but a restart leaves as it was. -/
def keptThroughDown (s t : State) : Prop :=
  onlyChanges [.link, .sched, .trunkTx, .reception, .reasm, .txPool, .rxPool, .egress, .agent, .events, .counters] s t ∧
    t.agent.requests = s.agent.requests ∧ t.agent.nextLocalTag = s.agent.nextLocalTag ∧ t.agent.mode = s.agent.mode ∧
    t.sched.nextTag = s.sched.nextTag ∧ t.sched.nextSeq = s.sched.nextSeq

/-- The blocks that every restart of any kind leaves in one state: pools free but for reserve frames built since,
queues, stacks and slots empty, receivers IDLE or SKIPPING, the link DOWN with cause RESTART (R42, R64, R90, R99, R120). -/
def trafficCleared (s t : State) : Prop :=
  t.pins.frameValid = s.pins.frameValid ∧ t.link.signal = s.link.signal ∧
    (∀ p, (t.sprs.get p).state = if s.pins.frameValid.get p then .skipping else .idle) ∧
    t.txPool.freeCells.length = 1024 ∧ t.txPool.freeDescs.length = 128 ∧ t.txPool.exhaustionReported = false ∧
    t.rxPool.levelPart.freeCells.length = 1008 ∧ t.rxPool.levelPart.freeDescs.length = 124 ∧
    t.rxPool.exhaustionReported = false ∧ (∀ l, t.rxPool.heldCells l = 0) ∧
    (∀ l, t.sched.queues.get l = []) ∧ t.sched.stack = [] ∧ t.sched.nextTag = Four.all 0#8 ∧
    t.sched.nextSeq = Four.all 0#16 ∧ t.trunkTx.inFlight = none ∧ t.trunkTx.latch = none ∧ t.reception = none ∧
    t.reasm.stack = [] ∧ t.reasm.expected = none ∧ t.link.state = .down ∧ t.link.lastCause = .restart ∧
    t.link.held = false ∧ t.link.heard = false ∧ t.link.controlDue = false ∧ t.link.helloDeadline = none ∧
    t.link.silenceDeadline = none ∧ t.link.keepaliveDeadline = none ∧ t.link.advanceDeadline = Four.all none ∧
    t.link.txCredit = Four.all none ∧ t.link.allotment = Four.all 0 ∧ t.link.lastAdvertised = Four.all none ∧
    t.link.errorBudget = 0 ∧ t.link.goodRun = 0 ∧
    t.link.holdOff = (if s.link.signal then some (t.time.timeBase + 10000#32) else none) ∧ t.agent.mode = .ready ∧
    t.agent.peers = []

/-- What a cold start and a FULL restart leave besides: configuration at defaults, counters at 0, the RESTART record
alone in the Event Queue, the Time Base at 0, the Agent empty, the reserve free (R120, R154, R177, R187, R188). -/
def allReset (t : State) (cause : RestartCause) : Prop :=
  t.config = { active := Bank.default, shadow := Bank.default, generation := 0#16, copyBack := none } ∧
    t.link.generation = 0#16 ∧ t.rxPool.descs = [] ∧ t.rxPool.reserve.freeCells.length = 16 ∧
    t.rxPool.reserve.freeDescs.length = 4 ∧ (∀ p, (t.egress.get p).queue = []) ∧
    t.agent = { mode := .ready, requests := [], peers := [], nextLocalTag := 0#8, noticeLatch := false } ∧
    t.counters = CounterBank.cold ∧
    t.time = { timeBase := 0#32, lastCause := cause, lastTrafficTime := 0#32, trafficRestarts := 0#32 } ∧
    t.events =
      { records :=
          [{ sequence := 0#16, time := 0#32, kind := .restart, subject := .none, stream := none
             detail := BitVec.ofNat 16 cause.code }]
        nextSeq := 1#16 }

/-- A frame of the management reserve has been built and appended to a port's Egress Queue: it takes the descriptor at
the head of the reserve's list and the first free cells, the queue's tail, and starts when the transmitter is IDLE (R112,
R126, R127). -/
def reserveFramePlaced (s t : State) (p : Port) (n : Nat) (stream : Half) (payload : List Byte) : Prop :=
  s.rxPool.reserve.freeDescs.head? = some n ∧
    t.rxPool.reserve.freeDescs = s.rxPool.reserve.freeDescs.tail ∧
    t.rxPool.reserve.freeCells = s.rxPool.reserve.freeCells.drop (cellsFor payload.length) ∧
    t.rxPool.desc n =
      some
        { cls := .reserve, stream := stream, length := payload.length
          chain := fillCells (s.rxPool.reserve.freeCells.take (cellsFor payload.length)) payload, holder := .egress
          refCount := 1 } ∧
    (∀ m, m ≠ n → t.rxPool.desc m = s.rxPool.desc m) ∧ t.rxPool.levelPart = s.rxPool.levelPart ∧
    (t.egress.get p).queue = (s.egress.get p).queue ++ [n] ∧
    (t.egress.get p).state = (if (s.egress.get p).state = .idle then .sending else (s.egress.get p).state) ∧
    ∀ q, q ≠ p → t.egress.get q = s.egress.get q

/-- A request of a station port has been executed: the head left the Management Request Queue, and the reply is placed as
a reserve frame and counted over the counters its command left (R157, R159). -/
def answered (s : State) (counters : CounterBank) (t : State) (r : Request) (p : Port) (n : Nat) (status : Status)
    (results : List Byte) : Prop :=
  t.agent.requests = s.agent.requests.tail ∧ t.counters = counters.plusMgmt .replies ∧
    reserveFramePlaced s t p n r.replyStream (replyBytes r.tag r.command status results)

/-- The request-local that a management command names, by its code and, for LINK CONTROL and RESTART, its first argument
byte (section 11.3). -/
def namesRequest (i : Instr) (r : Request) : Prop :=
  r.type = 0#8 ∧
    match i with
    | .status => r.command = 1#8
    | .readEntries => r.command = 2#8
    | .writeEntry => r.command = 3#8
    | .clearShadow => r.command = 4#8
    | .commit => r.command = 5#8
    | .readCounters => r.command = 6#8
    | .readEvents => r.command = 7#8
    | .ackEvents => r.command = 8#8
    | .flushLevel => r.command = 9#8
    | .linkControlDrop => r.command = 10#8 ∧ r.args.head? = some 1#8
    | .linkControlHold => r.command = 10#8 ∧ r.args.head? = some 2#8
    | .linkControlRelease => r.command = 10#8 ∧ r.args.head? = some 3#8
    | .trafficRestart => r.command = 11#8 ∧ r.args.head? = some 1#8
    | .fullRestart => r.command = 11#8 ∧ r.args.head? = some 2#8
    | _ => False

/-- The deferred command that a LINK CONTROL or RESTART asks for (R167, R168). -/
def deferredBy : Instr → Option DeferredCommand
  | .linkControlDrop => some (.linkControl .drop)
  | .linkControlHold => some (.linkControl .hold)
  | .linkControlRelease => some (.linkControl .release)
  | .trafficRestart => some (.restart .traffic)
  | .fullRestart => some (.restart .full)
  | _ => none

/-- The Agent is about to execute a request of the trunk that arrived in a link generation (R158, R160). -/
def State.hasTrunkRequest (s : State) (r : Request) (generation : Half) : Prop :=
  s.running ∧ s.agent.mode = .ready ∧ s.agent.requests.head? = some r ∧ r.source = .trunk generation

/-- A trunk reply of some results can be placed under a descriptor: the link is UP in the generation in which its request
arrived, and the Transmit Pool grants the claim (R111, R160). -/
def State.trunkReplyReady (s : State) (generation : Half) (n resultBytes : Nat) : Prop :=
  s.link.state = .up ∧ s.link.generation = generation ∧ s.txPool.freeDescs.head? = some n ∧
    cellsFor (5 + resultBytes) ≤ s.txPool.freeCells.length

/-- The Agent is about to execute a request-local of a command from a station port: the part runs, the mode is READY and
the request is at the head of the queue (R158). -/
def State.hasAtHead (s : State) (r : Request) (p : Port) (command : Byte) : Prop :=
  s.running ∧ s.agent.mode = .ready ∧ s.agent.requests.head? = some r ∧ r.source = .station p ∧ r.type = 0#8 ∧
    r.command = command

/-- The reserve can grant a frame of some bytes: a descriptor and enough cells are free (R112). -/
def State.reserveGrants (s : State) (bytes : Nat) : Prop :=
  s.rxPool.reserve.freeDescs ≠ [] ∧ cellsFor bytes ≤ s.rxPool.reserve.freeCells.length

/-- A request of a station port has been executed, whether or not the reserve could grant its reply. The head left the queue,
and of the Agent only the notice latch may be another. A reply that is granted is placed and counted over the counters the
command left; one that is not is dropped and counted, no frame is built, and the command's effect stands (R157, R159). -/
def replied (s : State) (counters : CounterBank) (latch : Bool) (t : State) (r : Request) (p : Port) (status : Status)
    (results : List Byte) : Prop :=
  t.agent = { s.agent with requests := s.agent.requests.tail, noticeLatch := latch } ∧
    (s.reserveGrants (5 + results.length) → ∃ n, answered s counters t r p n status results) ∧
    (¬s.reserveGrants (5 + results.length) →
      t.counters = counters.plusMgmt .repliesDropped ∧ t.rxPool = s.rxPool ∧ t.egress = s.egress)

/-- A request-local that no row of the table names is refused with a status: MALFORMED for an unknown command and for a LINK
CONTROL or RESTART without its argument, RANGE for an argument of theirs outside its codes (R158, R167). -/
def Request.refusedUnnamed (r : Request) (status : Status) : Prop :=
  r.type = 0#8 ∧
    ((r.command.toNat = 0 ∨ 11 < r.command.toNat) ∧ status = .malformed ∨
      (r.command = 10#8 ∨ r.command = 11#8) ∧ r.args = [] ∧ status = .malformed ∨
      ∃ code, r.args.head? = some code ∧ status = .range ∧
        (r.command = 10#8 ∧ (code.toNat = 0 ∨ 3 < code.toNat) ∨ r.command = 11#8 ∧ (code.toNat = 0 ∨ 2 < code.toNat)))

/-- A reply to a request from the trunk has joined the management level's queue, without a limit check, as a frame of origin
TRUNK REPLY on stream 65535, and is counted; the selection that its admission triggers is yet to be made (R14, R160). -/
def trunkReplyJoined (s u : State) (r : Request) (n : Nat) (status : Status) (results : List Byte) : Prop :=
  u.agent = { s.agent with requests := s.agent.requests.tail } ∧
    u.sched =
      { s.sched with
        queues :=
          s.sched.queues.set s.config.active.part.mgmtLevel
            (s.sched.queues.get s.config.active.part.mgmtLevel ++
              [{ number := n, level := s.config.active.part.mgmtLevel, atomic := false, trunkStream := 65535#16
                 frameLength := 5 + results.length
                 cells :=
                  fillCells (s.txPool.freeCells.take (cellsFor (5 + results.length)))
                    (replyBytes r.tag r.command status results)
                 origin := .trunkReply, admissionTime := s.now, ingressPort := none }]) } ∧
    u.txPool.freeCells = s.txPool.freeCells.drop (cellsFor (5 + results.length)) ∧
    u.txPool.freeDescs = s.txPool.freeDescs.tail ∧
    u.counters = (s.counters.plusLevel s.config.active.part.mgmtLevel .framesAdmitted 1).plusMgmt .replies ∧
    onlyChanges [.agent, .sched, .txPool, .counters] s u

/-- A reply to a request from the trunk has been placed: it has joined its queue, and its admission is a selection trigger. So
on an idle line with an empty latch it may be in flight already, and with a full latch nothing is selected (R14, R17, R160). -/
def trunkAnswered (s t : State) (r : Request) (n : Nat) (status : Status) (results : List Byte) : Prop :=
  ∃ u, trunkReplyJoined s u r n status results ∧ selectionFollows u t ∧ t.agent = u.agent ∧ t.txPool = u.txPool ∧
    onlyChanges [.agent, .sched, .txPool, .counters, .trunkTx, .link] s t

/-- The Transmit Pool cannot grant a frame of some bytes: no descriptor is free, or too few cells are (R111). -/
def State.poolShort (s : State) (bytes : Nat) : Prop :=
  s.txPool.freeDescs = [] ∨ s.txPool.freeCells.length < cellsFor bytes

/-- The Agent's claim on the Transmit Pool for a frame of some bytes has failed: nothing is taken, and the failure is recorded
unless one has been since the flag was clear. The resource recorded is the one that was short; with both short it is a free
value (R106, R111, log 19). -/
def agentClaimRefused (s t : State) (bytes : Nat) : Prop :=
  t.txPool = { s.txPool with exhaustionReported := true } ∧
    (s.txPool.exhaustionReported = true → t.events = s.events) ∧
    ∃ code, (code = 1#16 ∨ code = 2#16) ∧ (cellsFor bytes ≤ s.txPool.freeCells.length → code = 1#16) ∧
      (s.txPool.freeDescs ≠ [] → code = 2#16) ∧
      (s.txPool.exhaustionReported = false → recordAccepted s t .poolExhausted .none none code)

/-- A frame in RECEIVING passes the checks of its fall: its port is enabled, its length field lies in 1 to 1536 and agrees
with the bytes received, and its CRC is good (R97). -/
def goodFall (s : State) (p : Port) (r : Spr) (n : Nat) : Prop :=
  s.atRest ∧ s.pins.frameValid.get p = true ∧ s.sprs.get p = r ∧ r.state = .receiving n ∧
    (s.config.active.ports.get p).enabled = true ∧ r.overlength = false ∧ 1 ≤ (halfAt r.header 2).toNat ∧
    (halfAt r.header 2).toNat ≤ 1536 ∧ r.byteCount = (halfAt r.header 2).toNat + 6 ∧ r.crc = halfAt r.trailing 0

/-- The state with the head request taken off the Management Request Queue. -/
def State.withoutHead (s : State) : State := { s with agent := { s.agent with requests := s.agent.requests.tail } }

/-- The state in which the head request has been executed and its reply dropped and counted, before any other effect of its
command (R157, R159, R160). -/
def State.replyLost (s : State) : State := { s.withoutHead with counters := s.counters.plusMgmt .repliesDropped }

/-! ### LINK CONTROL and RESTART as they take effect (R72, R169, R176) -/

/-- A LINK CONTROL action has been taken in a state. An UP or HELLO link goes down with cause ADMIN at a DROP or HOLD, at a HOLD
held. On a DOWN link a DROP sets a running hold-off afresh, a HOLD holds the link and removes it, and a RELEASE frees a held link
and starts the hold-off when the signal is present; nothing else changes (R72, R79). -/
def linkControlled (u t : State) : LinkAction → Prop
  | .drop =>
    (u.link.state = .down →
      t =
        { u with
          link :=
            { u.link with
              holdOff :=
                if u.link.held = false ∧ u.link.signal = true ∧ u.link.holdOff.isSome = true then
                  some (u.now + 10000#32)
                else u.link.holdOff } }) ∧
      (u.link.state ≠ .down →
        u.link.wentDown u.now .admin t.link ∧ settledDown u t .admin ∧ keptThroughDown u t)
  | .hold =>
    (u.link.state = .down → t = { u with link := { u.link with held := true, holdOff := none } }) ∧
      (u.link.state ≠ .down →
        { u.link with held := true }.wentDown u.now .admin t.link ∧ t.link.holdOff = none ∧ settledDown u t .admin ∧
          keptThroughDown u t)
  | .release =>
    t =
      { u with
        link :=
          if u.link.state = .down ∧ u.link.held = true then
            { u.link with
              held := false
              holdOff := if u.link.signal = true then some (u.now + 10000#32) else u.link.holdOff }
          else u.link }

/-- A TRAFFIC restart has been taken in a state: the traffic side is cleared, configuration, link generation, requests and the
Time Base are kept, a link-down RESTART is counted when the link was HELLO or UP, the pending peers are answered, and RESTART
with code 4 and the restart-cause record are written (R12, R41, R63, R90, R132, R176, R187). -/
def trafficRestarted (u t : State) : Prop :=
  trafficCleared u t ∧ t.pins = u.pins ∧ t.config = u.config ∧
    t.trunkTransmitLine =
      (if u.trunkTx.inFlight.isSome = true ∨ u.trunkTx.cutOff = true then .endDelimiter else .idleFill) ∧
    t.link.generation = u.link.generation ∧ t.agent.requests = u.agent.requests ∧
    t.agent.nextLocalTag = u.agent.nextLocalTag ∧
    t.time =
      { timeBase := u.time.timeBase, lastCause := .trafficRestart, lastTrafficTime := u.time.timeBase
        trafficRestarts := u.time.trafficRestarts + 1#32 } ∧
    t.counters.port = u.counters.port ∧ t.counters.level = u.counters.level ∧ t.counters.hits = u.counters.hits ∧
    t.counters.trunk =
      (if u.link.state = .down then u.counters else u.counters.plusTrunk (.linkDowns .restart)).trunk ∧
    (u.agent.peers.length ≤ 4 → mgmtCounted u t .replies u.agent.peers.length) ∧
    recordAccepted u t .restart .none none 4#16 ∧ t.pending = u.pending ∧ t.freeCount = u.freeCount ∧
    (u.agent.peers = [] → u.noNotices →
      (∀ q, (t.egress.get q).queue = [] ∧
        (t.egress.get q).state = if (u.egress.get q).state = .sending then .idleGap else (u.egress.get q).state) ∧
      t.rxPool.reserve.freeCells.length = 16 ∧ t.rxPool.reserve.freeDescs.length = 4)

/-- A FULL restart has been taken in a state: all is as after a cold start, with cause FULL_RESTART, but for the lines, on which
a segment and frames in transmission are cut off (R12, R120, R132, R154, R176, R177, R188). -/
def fullyRestarted (u t : State) : Prop :=
  trafficCleared u t ∧ allReset t .fullRestart ∧ t.pins = u.pins ∧
    t.trunkTransmitLine =
      (if u.trunkTx.inFlight.isSome = true ∨ u.trunkTx.cutOff = true then .endDelimiter else .idleFill) ∧
    (∀ q, (t.egress.get q).state =
      if (u.egress.get q).state = .sending then .idleGap else (u.egress.get q).state) ∧
    t.pending = u.pending ∧ t.freeCount = u.freeCount

/-- The state with the Agent's mode READY. -/
def State.agentReady (s : State) : State := { s with agent := { s.agent with mode := .ready } }

/-- A LINK CONTROL or RESTART has taken effect in a state, and the Agent is READY (R168, R169). -/
def commandTaken (u t : State) : DeferredCommand → Prop
  | .linkControl a => linkControlled u.agentReady t a
  | .restart .traffic => trafficRestarted u t
  | .restart .full => fullyRestarted u t

/-- An event that is no execution takes the link down: its command, the cause, and the Link Controller as it stands when it goes
down. They are the loss of the line signal on an UP or HELLO link, and on an UP link the silence deadline, the 16th error and a
HELLO with heard-you 0 (R71, R74, R77, R78). -/
def State.goesDownBy (s : State) (i : Instr) (cause : LinkCause) (k : LinkController) : Prop :=
  (i = .lineSignalLoss ∧ cause = .signal ∧ s.link.signal = true ∧ s.link.state ≠ .down ∧
      k = { s.link with signal := false }) ∨
    (s.link.state = .up ∧ i = .silenceDeadlineExpiry ∧ cause = .silence ∧ passed s.now s.link.silenceDeadline ∧
      k = s.link) ∨
    ∃ r how, s.link.state = .up ∧ s.reception = some r ∧
      (i = .segmentReceptionEnd how ∨ i = .startDelimiterArrival ∧ how = .startDelimiter) ∧
      ((cause = .errorRate ∧ (how ≠ .endDelimiter ∨ r.overlength = true ∨ checkSegment r.bytes = none) ∧
          15 ≤ s.link.errorBudget ∧ k = { s.link with errorBudget := s.link.errorBudget + 1, goodRun := 0 }) ∨
        (cause = .peerRestart ∧ how = .endDelimiter ∧ r.overlength = false ∧
          (∃ limits, checkSegment r.bytes = some (.hello false limits)) ∧ s.link.sawGood s.now k))

end Sys2Proof.Machine
end

