-- ==== Sys2Proof/Certificates/Slice0/Obligations.lean ====
section
/-! DEFINITION. The statements for the provers. Each is a Prop about the commands, the step or an operation of the model;
none is proved here. -/

open Sys2Proof Sys2Proof.Machine

/-! ### The machine -/

/-- A step takes the command at the front of the queue and is that command on the state with the queue's rest. -/
def Obligations.StepTakesTheFrontCommand : Prop :=
  ∀ (c : Instr) (rest : List Instr) (s : State), step { s with pending := c :: rest } = exec c { s with pending := rest }

/-- No command and no idle step stops the part: the manual describes no event at which it stops. -/
def Obligations.EveryStepAnswersANextState : Prop := ∀ s : State, ∃ t, step s = .next t

/-- With no command waiting, the part executes the request at the head of the Agent's queue, exactly as the command named
for it does (R158); with none to execute and events due, it puts one of them in its queue of commands, which one being a free
value (log 3; due by logs 4, 12 and 26); with none due, one microsecond passes (R186). What an empty queue does is the model's
choice (log 2), and so is that the microsecond ends the end delimiter of a cut-off segment (log 11) and the idle byte time after
a station frame (log 12). An execution is taken at once: any other event finds the state that it leaves (R158). -/
def Obligations.EmptyQueueStepServesTheAgentOrTime : Prop :=
  (∀ (s : State) (r : Request), s.pending = [] → s.running → s.agent.mode = .ready → s.agent.requests.head? = some r →
    step s = .next (s.executeHead r) ∧
      (r.type = 1#8 → step s = exec .requestPeerForwarding s) ∧
      (r.type = 0#8 →
        (r.command = 1#8 → step s = exec .status s) ∧ (r.command = 2#8 → step s = exec .readEntries s) ∧
          (r.command = 3#8 → step s = exec .writeEntry s) ∧ (r.command = 4#8 → step s = exec .clearShadow s) ∧
          (r.command = 5#8 → step s = exec .commit s) ∧ (r.command = 6#8 → step s = exec .readCounters s) ∧
          (r.command = 7#8 → step s = exec .readEvents s) ∧ (r.command = 8#8 → step s = exec .ackEvents s) ∧
          (r.command = 9#8 → step s = exec .flushLevel s) ∧
          (r.command = 10#8 → r.args.head? = some 1#8 → step s = exec .linkControlDrop s) ∧
          (r.command = 10#8 → r.args.head? = some 2#8 → step s = exec .linkControlHold s) ∧
          (r.command = 10#8 → r.args.head? = some 3#8 → step s = exec .linkControlRelease s) ∧
          (r.command = 11#8 → r.args.head? = some 1#8 → step s = exec .trafficRestart s) ∧
          (r.command = 11#8 → r.args.head? = some 2#8 → step s = exec .fullRestart s))) ∧
  (∀ (c : Instr) (s : State) (r : Request), s.running → s.agent.headReady = some r → waitsForExecutions c = true →
    exec c s = exec c (s.executeHead r)) ∧
  (∀ s : State, s.pending = [] → s.atRest → (∃ c, s.isDue c) →
    ∃ t c, step s = .next t ∧ s.isDue c ∧ t.pending = [c] ∧ onlyChanges [.pending, .freeCount] s t) ∧
  ∀ s : State, s.pending = [] → s.atRest → (∀ c, ¬s.isDue c) →
    ∃ t, step s = .next t ∧ t.time = { s.time with timeBase := s.time.timeBase + 1#32 } ∧
      t.trunkTx = { s.trunkTx with cutOff := false } ∧
      (∀ p, (t.egress.get p).queue = (s.egress.get p).queue ∧
        (t.egress.get p).state = if (s.egress.get p).state = .sending then .sending else .idle) ∧
      onlyChanges [.time, .egress, .trunkTx] s t

/-! ### Reset pin and supply -/

/-- RESET_PIN_ASSERT: the part is in reset with the straps sampled; the Time Base is 0 and stands, the trunk line carries
no signal, the transmit clocks stop and every transmit frame-valid is low (R7, R89, R91, R127, R186). That the blocks keep
their content while the pin is held is the model's choice (log 9), and so is that the command carries the straps (log 10). -/
def Obligations.ResetPinHoldsThePart : Prop :=
  ∀ (trunk station : Straps) (s : State),
    ∃ t, exec (.resetPinAssert trunk station) s = .next t ∧
      t.pins = { s.pins with resetHeld := true, trunkStraps := trunk, stationStraps := station } ∧
      t.time = { s.time with timeBase := 0#32 } ∧ onlyChanges [.pins, .time] s t ∧ t.trunkTransmitLine = .noSignal ∧
      (∀ p, t.transmitFrameValid p = false) ∧ t.transmitClocksRun = false ∧ (t.pending = [] → step t = .next t)

/-- COLD_START: every block takes its cold-start state, and the RESTART record with cause POWER_UP or RESET_PIN is held
alone with sequence 0 and time 0 (R42, R64, R90, R99, R109, R120, R133, R154, R177, R179, R187, R188). -/
def Obligations.ColdStartLeavesTheColdState : Prop :=
  ∀ s : State, ∃ t, exec .coldStart s = .next t ∧ t.pins = { s.pins with resetHeld := false, supplyLow := false } ∧
    trafficCleared s t ∧ allReset t (if s.pins.supplyLow then .powerUp else .resetPin) ∧
    (∀ p, (t.egress.get p).state = .idle) ∧ t.trunkTransmitLine = .idleFill ∧ t.pending = s.pending ∧
    t.freeCount = s.freeCount

/-- SUPPLY_BELOW_OPERATING_LEVEL changes nothing but what the next cold start reports: POWER_UP, where a supply that
stayed steady since the last release reports RESET_PIN (R187). That a COLD_START with the pin not held is the release of a
pin asserted at once before it is the model's choice (log 8). -/
def Obligations.SupplyLossMakesThePowerUp : Prop :=
  (∀ s : State, ∃ t, exec .supplyBelowOperatingLevel s = .next t ∧ t.pins = { s.pins with supplyLow := true } ∧
    onlyChanges [.pins] s t ∧ ∃ u, exec .coldStart t = .next u ∧ u.time.lastCause = .powerUp ∧
      ∃ v, exec .coldStart u = .next v ∧ v.time.lastCause = .resetPin)

/-! ### Line signal -/

/-- LINE_SIGNAL_LOSS on a DOWN link removes the hold-off; on a HELLO or UP link it is a DOWN event with cause SIGNAL and
no hold-off. Either way a segment in reception is discarded without count. LINE_SIGNAL_RETURN starts the 10 ms hold-off when
the link is DOWN and not held, and only then (R8, R71, R79, R80). Stated for no command that awaits a trunk reply; the other is
CommandsWaitForTheirReply. -/
def Obligations.LineSignalGovernsTheHoldOff : Prop :=
  (∀ s : State, s.atRest → s.link.signal = true → s.link.state = .down →
    ∃ t, exec .lineSignalLoss s = .next t ∧ t.link = { s.link with signal := false, holdOff := none } ∧
      t.reception = none ∧ onlyChanges [.link, .reception] s t) ∧
  (∀ s : State, s.atRest → s.link.signal = true → s.link.state ≠ .down → s.noCommandOnTrunk →
    ∃ t, exec .lineSignalLoss s = .next t ∧ { s.link with signal := false }.wentDown s.now .signal t.link ∧
      t.link.holdOff = none ∧ t.reception = none ∧ settledDown s t .signal ∧ keptThroughDown s t ∧
      t.counters.trunkAt .crcMalformed = s.counters.trunkAt .crcMalformed) ∧
  ∀ s : State, s.atRest → s.link.signal = false →
    ∃ t, exec .lineSignalReturn s = .next t ∧
      t.link =
        { s.link with
          signal := true
          holdOff :=
            if s.link.state = .down ∧ s.link.held = false then some (s.now + 10000#32) else s.link.holdOff } ∧
      onlyChanges [.link] s t

/-! ### The Trunk Receiver and the Link Controller -/

/-- With no segment in reception a start delimiter begins one and an end delimiter or idle fill does nothing; a data byte
is added to a segment of fewer than 75 bytes, marks a longer one overlength, and is ignored outside a reception (R8). -/
def Obligations.ReceptionBuildsOneSegment : Prop :=
  (∀ s : State, s.atRest → s.reception = none →
    (∃ t, exec .startDelimiterArrival s = .next t ∧ t.reception = some { bytes := [], overlength := false } ∧
      onlyChanges [.reception] s t) ∧
    exec (.segmentReceptionEnd .endDelimiter) s = .next s ∧ exec (.segmentReceptionEnd .idleFill) s = .next s) ∧
  ∀ (s : State) (b : Byte), s.atRest →
    ∃ t, exec (.dataByteArrival b) s = .next t ∧ onlyChanges [.reception] s t ∧
      (s.reception = none → t.reception = none) ∧
      (∀ r, s.reception = some r → r.bytes.length < 75 → t.reception = some { r with bytes := r.bytes ++ [b] }) ∧
      ∀ r, s.reception = some r → 75 ≤ r.bytes.length → t.reception = some { r with overlength := true }

/-- A segment that fails the check on arrival while the link is not UP, and a good segment on a DOWN link or one that is
no HELLO on a HELLO link that has heard none, is counted and changes nothing else; a start delimiter that ends a segment
begins the next, and its arrival is one event with that end, by the model's reading of the table (log 30; R8, R9, R70, R78). -/
def Obligations.UntakenSegmentsAreOnlyCounted : Prop :=
  (∀ (s : State) (r : Reception) (how : ReceptionEnd), s.atRest → s.reception = some r → s.link.state ≠ .up →
    how ≠ .endDelimiter ∨ r.overlength = true ∨ checkSegment r.bytes = none →
      exec .startDelimiterArrival s = exec (.segmentReceptionEnd .startDelimiter) s ∧
      ∃ t, exec (.segmentReceptionEnd how) s = .next t ∧ t.counters = s.counters.plusTrunk .crcMalformed ∧
        t.reception = (if how = .startDelimiter then some { bytes := [], overlength := false } else none) ∧
        onlyChanges [.reception, .counters] s t) ∧
  ∀ (s : State) (r : Reception) (g : GoodSegment), s.atRest → s.reception = some r → r.overlength = false →
    checkSegment r.bytes = some g →
    s.link.state = .down ∨ s.link.state = .hello ∧ s.link.heard = false ∧ (∀ h q, g ≠ .hello h q) →
      ∃ t, exec (.segmentReceptionEnd .endDelimiter) s = .next t ∧ t.reception = none ∧
        ((∀ q, g ≠ .control q) → t.counters = s.counters.plusTrunk .segmentsReceived) ∧
        (∀ q, g = .control q → t.counters = (s.counters.plusTrunk .segmentsReceived).plusTrunk .controlReceived) ∧
        onlyChanges [.reception, .counters] s t

/-- A bad segment while UP raises the error budget by 1 and clears the good run; the one that brings the budget to 16
takes the link down with cause ERROR_RATE, stated for no command that awaits a trunk reply; the other is
CommandsWaitForTheirReply. A start delimiter then begins the next segment; that it does so even where the DOWN event releases a
deferred RESTART is the model's choice (log 37). Its arrival is one event with the end it makes, by the model's reading of the
table (log 30; R8, R9, R78, R79). -/
def Obligations.BadSegmentsSpendTheErrorBudget : Prop :=
  ∀ (s : State) (r : Reception) (how : ReceptionEnd), s.atRest → s.reception = some r → s.link.state = .up →
    how ≠ .endDelimiter ∨ r.overlength = true ∨ checkSegment r.bytes = none →
      exec .startDelimiterArrival s = exec (.segmentReceptionEnd .startDelimiter) s ∧
      ∃ t, exec (.segmentReceptionEnd how) s = .next t ∧
        t.reception = (if how = .startDelimiter then some { bytes := [], overlength := false } else none) ∧
        (s.link.errorBudget < 15 →
          t.link = { s.link with errorBudget := s.link.errorBudget + 1, goodRun := 0 } ∧
            t.counters = s.counters.plusTrunk .crcMalformed ∧ onlyChanges [.reception, .counters, .link] s t) ∧
        (15 ≤ s.link.errorBudget → s.noCommandOnTrunk →
          trunkCounted s t .crcMalformed ∧
            { s.link with errorBudget := s.link.errorBudget + 1, goodRun := 0 }.wentDown s.now .errorRate t.link ∧
            settledDown s t .errorRate ∧ keptThroughDown s t)

/-- A HELLO with heard-you 0 arriving in HELLO stores its four limits outright and makes heard yes (R74). -/
def Obligations.HelloStoresThePeersLimits : Prop :=
  ∀ (s : State) (r : Reception) (limits : Four Half), s.atRest → s.reception = some r → r.overlength = false →
    checkSegment r.bytes = some (.hello false limits) → s.link.state = .hello →
      ∃ t, exec (.segmentReceptionEnd .endDelimiter) s = .next t ∧ t.reception = none ∧
        t.link = { s.link with txCredit := Four.make fun l => some (limits.get l), heard := true } ∧
        t.counters = s.counters.plusTrunk .segmentsReceived ∧ onlyChanges [.reception, .counters, .link] s t

/-- A HELLO with heard-you 1 arriving in HELLO takes the link to UP, and so does a data segment or CONTROL once a HELLO has
been heard. The generation rises, the Link Allotment Record is loaded from the Active Level Table, the last-advertised limits
are those of the last HELLO that started (log 25), the limits are compared with them, the watches are set, next-tag,
next-sequence and next-expected numbers are 0, a latched HELLO is removed, and LINK_UP is recorded. A selection follows. A data
segment or CONTROL is then taken as in UP, before or after that selection, a free choice (log 17), and its good run is 0 or 1, a
free value (log 18); after a HELLO it is 0 (R4, R5, R17, R44, R74, R75, R76, R83, R85). -/
def Obligations.AnsweredHelloBringsTheLinkUp : Prop :=
  (∀ (s : State) (r : Reception) (g : GoodSegment), s.atRest → s.reception = some r → r.overlength = false →
    checkSegment r.bytes = some g → s.link.state = .hello → s.link.heard = true → (∀ h q, g ≠ .hello h q) →
      ∃ t u run, exec (.segmentReceptionEnd .endDelimiter) s = .next t ∧ run ≤ 1 ∧
        s.entersUp s.link.txCredit run u ∧
        ((∃ v, selectionFollows u v ∧ segmentTaken r g v t) ∨ ∃ v, segmentTaken r g u v ∧ selectionFollows v t)) ∧
  ∀ (s : State) (r : Reception) (limits : Four Half), s.atRest → s.reception = some r → r.overlength = false →
    checkSegment r.bytes = some (.hello true limits) → s.link.state = .hello →
      ∃ t, exec (.segmentReceptionEnd .endDelimiter) s = .next t ∧ t.reception = none ∧ t.link.state = .up ∧
        t.link.generation = s.link.generation + 1#16 ∧ t.link.heard = true ∧
        (∀ l, t.link.txCredit.get l = some (limits.get l)) ∧
        (∀ l, t.link.allotment.get l = (s.config.active.levels.get l).rxAllotment) ∧ t.link.errorBudget = 0 ∧
        t.link.goodRun = 0 ∧ t.link.silenceDeadline = some (s.now + 2000#32) ∧
        t.link.keepaliveDeadline = some (s.now + 250#32) ∧ t.link.helloDeadline = none ∧
        t.reasm.expected = some (Four.all 0#16) ∧ t.reasm.stack = s.reasm.stack ∧ trunkCounted s t .segmentsReceived ∧
        recordAccepted s t .linkUp .none none (s.link.generation + 1#16) ∧
        onlyChanges [.reception, .counters, .link, .sched, .trunkTx, .reasm, .rxPool, .egress, .agent, .events] s t ∧
        ∃ u, s.entersUp (Four.make fun l => some (limits.get l)) 0 u ∧ selectionFollows u t

/-- A HELLO arriving in UP: with heard-you 1 it is ignored but for the count of a good segment; with heard-you 0 it takes
the link down with cause PEER_RESTART (R74, R77, R78, R79). That is stated for no command that awaits a trunk reply; the
other is CommandsWaitForTheirReply. -/
def Obligations.HelloWhileUpTellsOfAPeerRestart : Prop :=
  ∀ (s : State) (r : Reception) (heardYou : Bool) (limits : Four Half), s.atRest → s.reception = some r →
    r.overlength = false → checkSegment r.bytes = some (.hello heardYou limits) → s.link.state = .up →
      (heardYou = true →
        ∃ t, exec (.segmentReceptionEnd .endDelimiter) s = .next t ∧ t.reception = none ∧
          s.link.sawGood s.now t.link ∧ t.counters = s.counters.plusTrunk .segmentsReceived ∧
          onlyChanges [.reception, .counters, .link] s t) ∧
      (heardYou = false → s.noCommandOnTrunk →
        ∃ t k, exec (.segmentReceptionEnd .endDelimiter) s = .next t ∧ t.reception = none ∧ s.link.sawGood s.now k ∧
          k.wentDown s.now .peerRestart t.link ∧ settledDown s t .peerRestart ∧ keptThroughDown s t)

/-- A CONTROL arriving in UP: each level's limit replaces the TX Credit Record's when it is ahead of it by 1 to 32767,
and is ignored otherwise, the levels taken separately; nothing else of the link moves but what a good segment moves. A limit
accepted is a selection trigger, taken once for the four (log 16); without one, or with a full latch, nothing is selected (R17,
R29, R77, R78, R88). -/
def Obligations.ControlAdvancesTheCreditRecord : Prop :=
  ∀ (s : State) (r : Reception) (limits : Four Half), s.atRest → s.reception = some r → r.overlength = false →
    checkSegment r.bytes = some (.control limits) → s.link.state = .up →
      ∃ t, exec (.segmentReceptionEnd .endDelimiter) s = .next t ∧ t.reception = none ∧
        (∀ l, s.link.txCredit.get l = none → t.link.txCredit.get l = none) ∧
        (∀ l old, s.link.txCredit.get l = some old →
          t.link.txCredit.get l =
            some
              (if 1 ≤ (limits.get l - old).toNat ∧ (limits.get l - old).toNat ≤ 32767 then limits.get l else old)) ∧
        t.counters.trunk = ((s.counters.plusTrunk .segmentsReceived).plusTrunk .controlReceived).trunk ∧
        t.link.silenceDeadline = some (s.now + 2000#32) ∧
        onlyChanges [.reception, .counters, .link, .sched, .trunkTx] s t ∧
        ∃ k u, s.link.sawGood s.now k ∧ u.link = { k with txCredit := t.link.txCredit } ∧ u.reception = none ∧
          u.counters = (s.counters.plusTrunk .segmentsReceived).plusTrunk .controlReceived ∧
          onlyChanges [.reception, .counters, .link] s u ∧ (u.link.txCredit = s.link.txCredit → t = u) ∧
          (u.link.txCredit ≠ s.link.txCredit → selectionFollows u t)

/-- A stale data segment, numbered 32768 to 65535 past the expected number, is dropped and counted: nothing is stored,
e(L), the stack and the Event Queue are untouched, and it feeds the silence timer and the good run (R47). -/
def Obligations.StaleSegmentIsDroppedAndCounted : Prop :=
  ∀ (s : State) (r : Reception) (d : RxData), s.atRest → s.reception = some r → r.overlength = false →
    checkSegment r.bytes = some (.data d) → s.link.state = .up → 32768 ≤ (d.seq - s.expectedAt d.level).toNat →
      ∃ t, exec (.segmentReceptionEnd .endDelimiter) s = .next t ∧ t.reception = none ∧
        t.counters = (s.counters.plusTrunk .segmentsReceived).plusLevel d.level .stale 1 ∧
        s.link.sawGood s.now t.link ∧ onlyChanges [.reception, .counters, .link] s t

/-- The loss check moves e(L) of the segment's level alone, to s + 1 when the segment is at most 32767 past e(L). After a
gap the segment finds the state in which the lost numbers are consumed and the frame open at its level, top or suspended, is
marked LOST_SEGMENT, or keeps its first reason, its cells gone back to the level part at the first marking. So a MIDDLE of
that frame leaves it open and marked, and its END aborts it (R45, R46, R53, R55). -/
def Obligations.LossCheckMovesTheExpectedNumber : Prop :=
  (∀ (s : State) (d : RxData) (expected : Four Half), s.receives d expected →
    (d.seq - expected.get d.level).toNat ≤ 32767 →
      ∃ t, exec (.segmentReceptionEnd .endDelimiter) s = .next t ∧ t.reception = none ∧
        t.reasm.expected = some (expected.set d.level (d.seq + 1#16)) ∧ t.link.state = .up ∧
        trunkCounted s t .segmentsReceived) ∧
  (∀ (s : State) (d : RxData) (expected : Four Half), s.receives d expected → d.seq ≠ expected.get d.level →
    (d.seq - expected.get d.level).toNat ≤ 32767 → (∀ e ∈ s.reasm.stack, e.level ≠ d.level) →
      exec (.segmentReceptionEnd .endDelimiter) s =
        exec (.segmentReceptionEnd .endDelimiter)
          { s with reasm := { s.reasm with expected := some (expected.set d.level d.seq) } }) ∧
  ∀ (s : State) (d : RxData) (expected : Four Half) (above : List RxEntry) (e : RxEntry) (below : List RxEntry),
    s.receives d expected → d.seq ≠ expected.get d.level → (d.seq - expected.get d.level).toNat ≤ 32767 →
    s.reasm.stack = above ++ e :: below → (∀ x ∈ above ++ below, x.level ≠ d.level) → e.level = d.level →
    s.holdApart [e] →
      (∃ u, exec (.segmentReceptionEnd .endDelimiter) s = exec (.segmentReceptionEnd .endDelimiter) u ∧
        u.reasm =
          { stack := above ++ { e with discarding := some (e.discarding.getD .lostSegment) } :: below
            expected := some (expected.set d.level d.seq) } ∧
        (e.discarding.isSome = true → onlyChanges [.reasm] s u) ∧
        (e.discarding = none → onlyChanges [.reasm, .rxPool] s u ∧ u.rxPool.reserve = s.rxPool.reserve ∧
          u.rxPool.levelPart =
            { s.rxPool.levelPart with freeCells := s.rxPool.levelPart.freeCells ++ s.cellsOf e } ∧
          ∀ m, u.rxPool.desc m =
            if e.descriptor = some m then (s.rxPool.desc m).map fun f => { f with chain := [] } else s.rxPool.desc m)) ∧
      ((∀ x ∈ above, d.level < x.level) → (∀ x ∈ below, x.level < d.level) → e.tag = d.tag →
        ∃ t, exec (.segmentReceptionEnd .endDelimiter) s = .next t ∧
          (d.kind = .middle →
            t.reasm.stack = { e with discarding := some (e.discarding.getD .lostSegment) } :: below) ∧
          (d.kind = .end_ →
            t.reasm.stack = below ∧
              levelCounted s t d.level (.aborts (e.discarding.getD .lostSegment)) 1))

/-- A START in sequence aborts LOST_END, or for its first reason, each frame open at its level or above, top first, with its
cells and descriptor returned, a count and an RX_ABORT record. Then its entry is pushed with its age deadline. With a level
descriptor and a cell its 64 bytes are stored under it; with no descriptor the entry is marked NO_DESCRIPTOR; with one but no
cell within the allotment it is marked CREDIT, the violation counted and recorded, or the pool's exhaustion, stated where no
descriptor on the reserve's free list is in use, as in every state a run reaches (R45, R48 to R50,
R56, R57, R118). -/
def Obligations.StartOpensAndStoresAFrame : Prop :=
  ∀ (s : State) (d : RxData) (expected : Four Half) (gone kept : List RxEntry) (part : RxPart) (held : Nat)
    (entry : RxEntry) (desc : RxDescriptor) (told : List Told), s.opensAt d expected gone kept part held → d.kind = .start →
    entry =
      { level := d.level, tag := d.tag, stream := d.stream, declaredLength := d.length, bytesReceived := 64
        segmentsReceived := 1, descriptor := none, discarding := none
        ageDeadline := some (s.now + BitVec.ofNat 32 (1000 * (s.config.active.levels.get d.level).rxAgeLimit)) } →
    desc =
      { cls := .level d.level, stream := d.stream, length := d.length, chain := [], holder := .reassembler
        refCount := 0 } →
    told = (abortedFor .lostEnd gone).map (·.told) →
      ∃ t, exec (.segmentReceptionEnd .endDelimiter) s = .next t ∧ t.reception = none ∧
        t.reasm.expected = some (expected.set d.level (d.seq + 1#16)) ∧ trunkCounted s t .segmentsReceived ∧
        abortsCounted s t (abortedFor .lostEnd gone) ∧
        (part.freeDescs = [] →
          t.reasm.stack = { entry with discarding := some .noDescriptor } :: kept ∧ t.rxPool.levelPart = part ∧
            recordsTold s t (told ++ s.descRefusedTold d)) ∧
        (∀ n rest, part.freeDescs = n :: rest →
          (∀ c more, part.freeCells = c :: more → held < s.link.allotment.get d.level →
            t.reasm.stack = { entry with descriptor := some n } :: kept ∧
              t.rxPool.desc n = some { desc with chain := [{ number := c, bytes := d.payload }] } ∧
              t.rxPool.levelPart = { freeCells := more, freeDescs := rest } ∧ recordsTold s t told ∧
              (gone = [] ∨ s.noNotices →
                onlyChanges [.reception, .counters, .link, .sched, .trunkTx, .reasm, .rxPool, .events] s t)) ∧
          (s.reserveUnused → part.freeCells = [] ∨ s.link.allotment.get d.level ≤ held →
            t.reasm.stack = { entry with descriptor := some n, discarding := some .credit } :: kept ∧
              t.rxPool.desc n = some desc ∧ t.rxPool.levelPart = { part with freeDescs := rest } ∧
              violationsCounted s t d.level (s.cellRefusedTold d d.stream held) ∧
              recordsTold s t (told ++ s.cellRefusedTold d d.stream held))) ∧
        (∀ m, m ∉ descsOf gone → m ∉ part.freeDescs.head? → m ∉ s.rxPool.reserve.freeDescs →
          t.rxPool.desc m = s.rxPool.desc m) ∧
        (s.noNotices → t.rxPool.reserve = s.rxPool.reserve ∧
          onlyChanges [.reception, .counters, .link, .sched, .trunkTx, .reasm, .rxPool, .events] s t) ∧
        onlyChanges [.reception, .counters, .link, .sched, .trunkTx, .reasm, .rxPool, .events, .egress, .agent] s t

/-- A MIDDLE or END in sequence is an orphan at a level with no open frame: it is counted, nothing is stored, the stack stays
and no event is recorded. It is one too when the frame open at its level carries another tag: the frames above are aborted
LOST_END, that frame TAG_MISMATCH, each for its first reason if it has one, with their cells and descriptors returned, their
counts and their RX_ABORT records, top first (R45, R52, R53, R54, R56). -/
def Obligations.OrphanIsCountedAndDropped : Prop :=
  (∀ (s : State) (d : RxData) (expected : Four Half), s.receives d expected → d.kind = .middle ∨ d.kind = .end_ →
    d.seq = expected.get d.level → (∀ e ∈ s.reasm.stack, e.level ≠ d.level) →
      ∃ t, exec (.segmentReceptionEnd .endDelimiter) s = .next t ∧ t.reception = none ∧
        t.reasm = { s.reasm with expected := some (expected.set d.level (d.seq + 1#16)) } ∧
        levelCounted s t d.level .orphans 1 ∧ trunkCounted s t .segmentsReceived ∧
        onlyChanges [.reception, .counters, .link, .sched, .trunkTx, .reasm] s t) ∧
  ∀ (s : State) (d : RxData) (expected : Four Half) (above : List RxEntry) (e : RxEntry) (below : List RxEntry)
    (part : RxPart) (gone : List Aborted), s.continuesAt d expected above e below part → e.tag ≠ d.tag →
    gone = abortedFor .lostEnd above ++ abortedFor .tagMismatch [e] →
      ∃ t, exec (.segmentReceptionEnd .endDelimiter) s = .next t ∧ t.reception = none ∧
        t.reasm = { stack := below, expected := some (expected.set d.level (d.seq + 1#16)) } ∧
        levelCounted s t d.level .orphans 1 ∧ trunkCounted s t .segmentsReceived ∧ abortsCounted s t gone ∧
        recordsTold s t (gone.map (·.told)) ∧
        t.rxPool.levelPart =
          { freeCells := part.freeCells ++ s.cellsOf e, freeDescs := part.freeDescs ++ descsOf [e] } ∧
        (∀ m, m ∉ s.rxPool.reserve.freeDescs →
          t.rxPool.desc m = if m ∈ descsOf (above ++ [e]) then none else s.rxPool.desc m) ∧
        (s.noNotices → onlyChanges [.reception, .counters, .link, .sched, .trunkTx, .reasm, .rxPool, .events] s t) ∧
        onlyChanges [.reception, .counters, .link, .sched, .trunkTx, .reasm, .rxPool, .events, .egress, .agent] s t

/-- A WHOLE in sequence first aborts the frames open at its level or above, as a START does, and pushes nothing. With a level
descriptor and a cell within the allotment it is stored and handed on at once: each port of the stream's port set takes it when
it is enabled and has room and counts an egress drop otherwise; the frame carries the output stream number and one reference
per port that took it, or is released when none did. A frame of stream 65535 is handed to the Agent instead: a request joins
its queue, a reply that answers a pending peer request is relayed to the requester under its own tag and reply stream, another
reply is late, and any other payload is dropped with its reason. Without descriptor or cell the WHOLE is dropped, the abort
counted and recorded after the claim's own record, and the descriptor it took is returned, the free list as it stood (log 23)
(R51, R56, R60, R116, R121, R122, R123, R156, R157, R172). With frames aborted, delivery is stated for notices off;
the drop for CREDIT where no descriptor on the reserve's free list is in use, as in every state a run reaches. -/
def Obligations.WholeFrameIsDelivered : Prop :=
  ∀ (s : State) (d : RxData) (expected : Four Half) (gone kept : List RxEntry) (part : RxPart) (held : Nat)
    (told : List Told), s.opensAt d expected gone kept part held → d.kind = .whole →
    told = (abortedFor .lostEnd gone).map (·.told) →
      ∃ t, exec (.segmentReceptionEnd .endDelimiter) s = .next t ∧ t.reception = none ∧ t.reasm.stack = kept ∧
        t.reasm.expected = some (expected.set d.level (d.seq + 1#16)) ∧ trunkCounted s t .segmentsReceived ∧
        (∀ n rest c more, part.freeDescs = n :: rest → part.freeCells = c :: more →
          held < s.link.allotment.get d.level → d.stream ≠ 65535#16 → gone = [] ∨ s.noNotices →
          s.notQueued (n :: descsOf gone) →
            userFrameDelivered s t d.level n
                { cls := .level d.level, stream := d.stream, length := d.length
                  chain := [{ number := c, bytes := d.payload }], holder := .reassembler, refCount := 0 }
                { freeCells := more, freeDescs := rest } ∧
              abortsCounted s t (abortedFor .lostEnd gone) ∧ recordsTold s t told ∧
              onlyChanges [.reception, .counters, .link, .sched, .trunkTx, .reasm, .rxPool, .egress, .events] s t) ∧
        (∀ n rest c more, part.freeDescs = n :: rest → part.freeCells = c :: more →
          held < s.link.allotment.get d.level → d.stream = 65535#16 → gone = [] ∨ s.noNotices →
            mgmtFrameDelivered s t d.level n
                { cls := .level d.level, stream := d.stream, length := d.length
                  chain := [{ number := c, bytes := d.payload }], holder := .reassembler, refCount := 0 }
                { freeCells := more, freeDescs := rest } told ∧
              abortsCounted s t (abortedFor .lostEnd gone) ∧
              onlyChanges
                [.reception, .counters, .link, .sched, .trunkTx, .reasm, .rxPool, .egress, .events, .agent] s t) ∧
        ∀ reason claim,
          (part.freeDescs = [] ∧ reason = .noDescriptor ∧ claim = s.descRefusedTold d) ∨
            (s.reserveUnused ∧ part.freeDescs ≠ [] ∧ (part.freeCells = [] ∨ s.link.allotment.get d.level ≤ held) ∧
              reason = .credit ∧ claim = s.cellRefusedTold d d.stream held) →
          ∀ dropped : Aborted, dropped = { level := d.level, stream := d.stream, reason := reason } →
            abortsCounted s t (abortedFor .lostEnd gone ++ [dropped]) ∧ violationsCounted s t d.level claim ∧
              recordsTold s t (told ++ claim ++ [dropped.told]) ∧ t.rxPool.levelPart = part ∧
              (∀ m, m ∉ s.rxPool.reserve.freeDescs →
                t.rxPool.desc m = if m ∈ descsOf gone then none else s.rxPool.desc m) ∧
              (s.noNotices →
                onlyChanges [.reception, .counters, .link, .sched, .trunkTx, .reasm, .rxPool, .events] s t) ∧
              onlyChanges
                [.reception, .counters, .link, .sched, .trunkTx, .reasm, .rxPool, .events, .egress, .agent] s t

/-- A MIDDLE or END in sequence whose tag is that of the frame open at its level first aborts the frames above LOST_END. A
frame that is discarding, one whose bytes or segments the payload would overrun (OVERLONG), or one that gets no cell within the
allotment (CREDIT, with the claim's record) stores nothing: a MIDDLE leaves it marked with its first reason and its cells
returned, an END aborts it for that reason. Otherwise the payload is stored at the end of its chain, and an END that brings its
bytes to the declared length completes it: it leaves the stack and is delivered to the ports of its stream's port set, its
whole chain with it, or for stream 65535 handed to the Agent as a request, a relayed or late reply, or a payload to drop; one
that falls short aborts it LENGTH_MISMATCH. Each abort is counted and recorded in order (R52, R53, R55, R56, R58, R59, R60, R121,
R122, R123, R156, R172; claims as in R49). With frames aborted, delivery is stated for notices off; the
refusal of a cell where no descriptor on the reserve's free list is in use, as in every state a run reaches. -/
def Obligations.EndCompletesTheOpenFrame : Prop :=
  ∀ (s : State) (d : RxData) (expected : Four Half) (above : List RxEntry) (e : RxEntry) (below : List RxEntry)
    (part : RxPart) (lost : List Aborted) (overrun : Prop), s.continuesAt d expected above e below part → e.tag = d.tag →
    lost = abortedFor .lostEnd above →
    (overrun ↔ e.declaredLength < e.bytesReceived + d.payload.length ∨ 24 ≤ e.segmentsReceived) →
      ∃ t, exec (.segmentReceptionEnd .endDelimiter) s = .next t ∧ t.reception = none ∧
        t.reasm.expected = some (expected.set d.level (d.seq + 1#16)) ∧ trunkCounted s t .segmentsReceived ∧
        (∀ m, m ∉ descsOf (above ++ [e]) → m ∉ s.rxPool.reserve.freeDescs → t.rxPool.desc m = s.rxPool.desc m) ∧
        (∀ m ∈ descsOf above, t.rxPool.desc m = none) ∧
        (∀ reason claim,
          (e.discarding = some reason ∧ claim = []) ∨
            (e.discarding = none ∧ overrun ∧ reason = .overlong ∧ claim = []) ∨
            (s.reserveUnused ∧ e.discarding = none ∧ ¬overrun ∧ e.descriptor.isSome = true ∧
              (part.freeCells = [] ∨ s.link.allotment.get d.level ≤ s.heldCells d.level) ∧ reason = .credit ∧
              claim = s.cellRefusedTold d e.stream (s.heldCells d.level)) →
          violationsCounted s t d.level claim ∧
            (s.noNotices → onlyChanges [.reception, .counters, .link, .sched, .trunkTx, .reasm, .rxPool, .events] s t) ∧
            onlyChanges
              [.reception, .counters, .link, .sched, .trunkTx, .reasm, .rxPool, .events, .egress, .agent] s t ∧
            (d.kind = .middle →
              t.reasm.stack = { e with discarding := some reason } :: below ∧ abortsCounted s t lost ∧
                recordsTold s t (lost.map (·.told) ++ claim) ∧
                t.rxPool.levelPart =
                  { part with
                    freeCells := part.freeCells ++ if e.discarding = none then s.cellsOf e else [] } ∧
                ∀ n ∈ e.descriptor, t.rxPool.desc n =
                  (s.rxPool.desc n).map fun f => if e.discarding = none then { f with chain := [] } else f) ∧
            (d.kind = .end_ → ∀ ended : Aborted, ended = { level := e.level, stream := e.stream, reason := reason } →
              t.reasm.stack = below ∧ abortsCounted s t (lost ++ [ended]) ∧
                recordsTold s t (lost.map (·.told) ++ claim ++ [ended.told]) ∧
                t.rxPool.levelPart =
                  { freeCells := part.freeCells ++ s.cellsOf e, freeDescs := part.freeDescs ++ descsOf [e] } ∧
                ∀ n ∈ e.descriptor, t.rxPool.desc n = none)) ∧
        ∀ n f c more whole, e.discarding = none → ¬overrun → e.descriptor = some n → s.rxPool.desc n = some f →
          part.freeCells = c :: more → s.heldCells d.level < s.link.allotment.get d.level →
          whole = { f with chain := f.chain ++ [{ number := c, bytes := d.payload }] } →
            (d.kind = .middle →
              t.reasm.stack =
                  { e with
                    bytesReceived := e.bytesReceived + 64
                    segmentsReceived := e.segmentsReceived + 1 } :: below ∧
                t.rxPool.desc n = some whole ∧ t.rxPool.levelPart = { part with freeCells := more } ∧
                abortsCounted s t lost ∧ recordsTold s t (lost.map (·.told)) ∧
                (above = [] ∨ s.noNotices →
                  onlyChanges [.reception, .counters, .link, .sched, .trunkTx, .reasm, .rxPool, .events] s t)) ∧
            (d.kind = .end_ → e.bytesReceived + d.payload.length = e.declaredLength →
              t.reasm.stack = below ∧ abortsCounted s t lost ∧
                (f.stream ≠ 65535#16 → above = [] ∨ s.noNotices → s.notQueued (n :: descsOf above) →
                  userFrameDelivered s t d.level n whole { part with freeCells := more } ∧
                    recordsTold s t (lost.map (·.told)) ∧
                    onlyChanges [.reception, .counters, .link, .sched, .trunkTx, .reasm, .rxPool, .egress, .events] s
                      t) ∧
                (f.stream = 65535#16 → above = [] ∨ s.noNotices →
                  mgmtFrameDelivered s t d.level n whole { part with freeCells := more } (lost.map (·.told)) ∧
                    onlyChanges
                      [.reception, .counters, .link, .sched, .trunkTx, .reasm, .rxPool, .egress, .events, .agent] s
                      t)) ∧
            (d.kind = .end_ → e.bytesReceived + d.payload.length ≠ e.declaredLength →
              ∀ ended : Aborted, ended = { level := e.level, stream := e.stream, reason := .lengthMismatch } →
                t.reasm.stack = below ∧ abortsCounted s t (lost ++ [ended]) ∧
                  recordsTold s t (lost.map (·.told) ++ [ended.told]) ∧ t.rxPool.desc n = none ∧
                  t.rxPool.levelPart =
                    { freeCells := more ++ chainNumbers whole.chain, freeDescs := part.freeDescs ++ [n] } ∧
                  (s.noNotices →
                    onlyChanges [.reception, .counters, .link, .sched, .trunkTx, .reasm, .rxPool, .events] s t) ∧
                  onlyChanges
                    [.reception, .counters, .link, .sched, .trunkTx, .reasm, .rxPool, .events, .egress, .agent] s t)

/-! ### The Station Port Receivers and the Classifier -/

/-- FRAME_VALID_RISE in IDLE or SKIPPING: with a free descriptor the record is cleared, the CRC state is 0xFFFF and the
state RECEIVING; with none it is DROPPING NO_DESCRIPTOR, and POOL_EXHAUSTED with detail 1 is recorded when the flag was
clear (R94, R106). -/
def Obligations.RiseClaimsADescriptor : Prop :=
  ∀ (s : State) (p : Port), s.atRest → s.pins.frameValid.get p = false →
    (s.sprs.get p).state = .idle ∨ (s.sprs.get p).state = .skipping →
      ∃ t, exec (.frameValidRise p) s = .next t ∧ t.pins = { s.pins with frameValid := s.pins.frameValid.set p true } ∧
        (∀ q, q ≠ p → t.sprs.get q = s.sprs.get q) ∧
        (∀ n rest, s.txPool.freeDescs = n :: rest →
          t.sprs.get p =
              { state := .receiving n, byteCount := 0, overlength := false, header := [], trailing := [], crc := 0xFFFF#16
                cells := [] } ∧
            t.txPool = { s.txPool with freeDescs := rest } ∧ onlyChanges [.pins, .sprs, .txPool] s t) ∧
        (s.txPool.freeDescs = [] →
          (t.sprs.get p).state = .dropping .noDescriptor ∧ t.txPool = { s.txPool with exhaustionReported := true } ∧
            (s.txPool.exhaustionReported = true → onlyChanges [.pins, .sprs] s t) ∧
            (s.txPool.exhaustionReported = false → recordAccepted s t .poolExhausted (.port p) none 1#16) ∧
            onlyChanges [.pins, .sprs, .txPool, .rxPool, .egress, .agent, .counters, .events] s t)

/-- STATION_BYTE_RECEIVED: bytes 1 to 4 go to the header and the CRC state; a later byte enters the trailing pair, and the
byte that leaves it is fed to the CRC state and written to the last cell, or to a cell claimed for it; byte 1543 and later
set the overlength mark; a failed claim drops the frame and returns its holdings; outside RECEIVING a byte is ignored
(R95, R96). -/
def Obligations.StationByteIsTaken : Prop :=
  ∀ (s : State) (p : Port) (b : Byte) (r : Spr), s.atRest → s.pins.frameValid.get p = true → s.sprs.get p = r →
    ((∀ n, r.state ≠ .receiving n) → exec (.stationByteReceived p b) s = .next s) ∧
    ∀ n, r.state = .receiving n →
      ∃ t, exec (.stationByteReceived p b) s = .next t ∧ (∀ q, q ≠ p → t.sprs.get q = s.sprs.get q) ∧
        (r.byteCount < 4 →
          t.sprs.get p =
              { r with header := r.header ++ [b], crc := crcByte r.crc b, byteCount := r.byteCount + 1 } ∧
            onlyChanges [.sprs] s t) ∧
        (1542 ≤ r.byteCount → t.sprs.get p = { r with overlength := true } ∧ onlyChanges [.sprs] s t) ∧
        (4 ≤ r.byteCount → r.byteCount < 1542 → r.trailing.length < 2 →
          t.sprs.get p = { r with trailing := r.trailing ++ [b], byteCount := r.byteCount + 1 } ∧
            onlyChanges [.sprs] s t) ∧
        ∀ old kept, 4 ≤ r.byteCount → r.byteCount < 1542 → r.trailing = [old, kept] →
          (∀ chain last, r.cells = chain ++ [last] → last.bytes.length < 64 →
            t.sprs.get p =
                { r with
                  trailing := [kept, b]
                  crc := crcByte r.crc old
                  byteCount := r.byteCount + 1
                  cells := chain ++ [{ last with bytes := last.bytes ++ [old] }] } ∧
              onlyChanges [.sprs] s t) ∧
          ((∀ chain last, r.cells = chain ++ [last] → 64 ≤ last.bytes.length) →
            (∀ c rest, s.txPool.freeCells = c :: rest →
              t.sprs.get p =
                  { r with
                    trailing := [kept, b]
                    crc := crcByte r.crc old
                    byteCount := r.byteCount + 1
                    cells := r.cells ++ [{ number := c, bytes := [old] }] } ∧
                t.txPool = { s.txPool with freeCells := rest } ∧ onlyChanges [.sprs, .txPool] s t) ∧
            (s.txPool.freeCells = [] →
              (t.sprs.get p).state = .dropping .noBuffer ∧ (t.sprs.get p).cells = [] ∧
                t.txPool.freeCells = r.cells.map (·.number) ∧ t.txPool.freeDescs = s.txPool.freeDescs ++ [n] ∧
                (s.txPool.exhaustionReported = false → recordAccepted s t .poolExhausted (.port p) none 2#16) ∧
                onlyChanges [.sprs, .txPool, .rxPool, .egress, .agent, .counters, .events] s t))

/-- FRAME_VALID_FALL of a frame that is dropped: SKIPPING ends with no count; DROPPING counts its reason; a frame in
RECEIVING is DISABLED, RUNT, LENGTH or CRC by the first that applies, its cells and descriptor return to the pool, and
frames in and that reason are counted (R97, R108). -/
def Obligations.FallDropsABadFrame : Prop :=
  ∀ (s : State) (p : Port) (r : Spr), s.atRest → s.pins.frameValid.get p = true → s.sprs.get p = r →
    (r.state = .skipping →
      ∃ t, exec (.frameValidFall p) s = .next t ∧ (t.sprs.get p).state = .idle ∧
        t.pins = { s.pins with frameValid := s.pins.frameValid.set p false } ∧
        onlyChanges [.pins, .sprs] s t) ∧
    (∀ reason, r.state = .dropping reason →
      ∃ t, exec (.frameValidFall p) s = .next t ∧ (t.sprs.get p).state = .idle ∧
        t.counters =
          (s.counters.plusPort p .framesIn).plusPort p
            (match reason with | .noDescriptor => .noDescriptor | .noBuffer => .noBuffer) ∧
        t.pins = { s.pins with frameValid := s.pins.frameValid.set p false } ∧
        onlyChanges [.pins, .sprs, .counters] s t) ∧
    ∀ n counter, r.state = .receiving n →
      ((s.config.active.ports.get p).enabled = false ∧ counter = PortCounter.disabled) ∨
        ((s.config.active.ports.get p).enabled = true ∧ r.byteCount < 6 ∧ counter = .runt) ∨
        ((s.config.active.ports.get p).enabled = true ∧ 6 ≤ r.byteCount ∧
          (r.overlength = true ∨ (halfAt r.header 2).toNat = 0 ∨ 1536 < (halfAt r.header 2).toNat ∨
            r.byteCount ≠ (halfAt r.header 2).toNat + 6) ∧ counter = .length) ∨
        ((s.config.active.ports.get p).enabled = true ∧ 6 ≤ r.byteCount ∧ r.overlength = false ∧
          1 ≤ (halfAt r.header 2).toNat ∧ (halfAt r.header 2).toNat ≤ 1536 ∧
          r.byteCount = (halfAt r.header 2).toNat + 6 ∧ r.crc ≠ halfAt r.trailing 0 ∧ counter = .crc) →
        ∃ t, exec (.frameValidFall p) s = .next t ∧ (t.sprs.get p).state = .idle ∧
          t.txPool.freeCells = s.txPool.freeCells ++ r.cells.map (·.number) ∧
          t.txPool.freeDescs = s.txPool.freeDescs ++ [n] ∧
          t.counters = (s.counters.plusPort p .framesIn).plusPort p counter ∧
          t.pins = { s.pins with frameValid := s.pins.frameValid.set p false } ∧
          (∀ q, q ≠ p → t.sprs.get q = s.sprs.get q) ∧ onlyChanges [.pins, .sprs, .txPool, .counters] s t

/-- FRAME_VALID_FALL of a good user frame: the entry of its port and stream, else that of ANY and its stream, else the
port's defaults, give level, atomic flag and trunk stream number, and an entry's hit is counted. A DROP frame and one for
which the level's queue has no room go back to the pool and are counted; any other joins the tail of its Level Queue with
the Time Base as its admission time, a selection trigger: with the link UP and the latch empty the selection is made from the
state that holds the frame (R11, R14, R17, R97, R101, R102, R103, R104). -/
def Obligations.FallClassifiesAUserFrame : Prop :=
  ∀ (s : State) (p : Port) (r : Spr) (n : Nat) (found : Option (Nat × StreamEntry)), goodFall s p r n →
    halfAt r.header 0 ≠ 65535#16 →
    (∀ i e, found = some (i, e) →
      (i, e) ∈ s.config.active.streams ∧ e.stream = halfAt r.header 0 ∧ s.config.active.kept ∧
        (e.matchPort = .port p ∨
          e.matchPort = .any ∧
            ∀ x ∈ s.config.active.streams, ¬(x.2.matchPort = .port p ∧ x.2.stream = halfAt r.header 0))) →
    (found = none →
      ∀ x ∈ s.config.active.streams,
        ¬((x.2.matchPort = .port p ∨ x.2.matchPort = .any) ∧ x.2.stream = halfAt r.header 0)) →
      ∃ (t : State) (action : Action) (level : Level) (atomic : Bool) (trunkStream : Half),
        exec (.frameValidFall p) s = .next t ∧ (t.sprs.get p).state = .idle ∧
        t.pins = { s.pins with frameValid := s.pins.frameValid.set p false } ∧
        portCounted s t p .framesIn ∧
        (∀ i e, found = some (i, e) →
          action = e.action ∧ level = e.level ∧ atomic = e.atomic ∧
            trunkStream = e.trunkStream.getD (halfAt r.header 0) ∧ t.counters.hit i = s.counters.hit i + 1#32) ∧
        (found = none →
          action = (s.config.active.ports.get p).defaultAction ∧ level = (s.config.active.ports.get p).defaultLevel ∧
            atomic = false ∧ trunkStream = halfAt r.header 0 ∧ t.counters.hits = s.counters.hits) ∧
        (action = .drop →
          portCounted s t p .dropAction ∧ t.txPool.freeDescs = s.txPool.freeDescs ++ [n] ∧
            t.txPool.freeCells = s.txPool.freeCells ++ r.cells.map (·.number) ∧
            onlyChanges [.pins, .sprs, .txPool, .counters] s t) ∧
        (action = .forward →
          (s.config.active.levels.get level).txQueueLimit < s.levelQueueCells level + r.cells.length →
          portCounted s t p .queueFull ∧ t.txPool.freeDescs = s.txPool.freeDescs ++ [n] ∧
            t.txPool.freeCells = s.txPool.freeCells ++ r.cells.map (·.number) ∧
            onlyChanges [.pins, .sprs, .txPool, .counters] s t) ∧
        (action = .forward →
          s.levelQueueCells level + r.cells.length ≤ (s.config.active.levels.get level).txQueueLimit →
          levelCounted s t level .framesAdmitted 1 ∧ t.txPool = s.txPool ∧
            onlyChanges [.pins, .sprs, .counters, .sched, .trunkTx, .link] s t ∧
            ∃ u : State, selectionFollows u t ∧ onlyChanges [.pins, .sprs, .counters, .sched] s u ∧
              u.sched =
                { s.sched with
                  queues :=
                    s.sched.queues.set level
                      (s.sched.queues.get level ++
                        [{ number := n, level := level, atomic := atomic, trunkStream := trunkStream
                           frameLength := (halfAt r.header 2).toNat, cells := r.cells, origin := .station
                           admissionTime := s.now, ingressPort := some p }]) })

/-- FRAME_VALID_FALL of a good management frame: without permission it is refused and counted; with it a payload of 6 to
256 bytes and type 0 or 1 joins the Management Request Queue when that holds fewer than 4, one of a wrong length or type
or without a place is dropped, counted and recorded with its reason, and the frame goes back to the pool in every case
(R100, R156, R157). -/
def Obligations.FallHandsAPayloadToTheAgent : Prop :=
  ∀ (s : State) (p : Port) (r : Spr) (n : Nat), goodFall s p r n → halfAt r.header 0 = 65535#16 →
    ∃ t, exec (.frameValidFall p) s = .next t ∧ (t.sprs.get p).state = .idle ∧
      t.pins = { s.pins with frameValid := s.pins.frameValid.set p false } ∧
      portCounted s t p .framesIn ∧ t.txPool.freeDescs = s.txPool.freeDescs ++ [n] ∧
      t.txPool.freeCells = s.txPool.freeCells ++ r.cells.map (·.number) ∧
      ((s.config.active.ports.get p).mgmtPermitted = false →
        portCounted s t p .mgmtRefused ∧ onlyChanges [.pins, .sprs, .txPool, .counters] s t) ∧
      ((s.config.active.ports.get p).mgmtPermitted = true → ∀ payload, payload = chainBytes r.cells →
        (6 ≤ payload.length → payload.length ≤ 256 → (byteAt payload 2).toNat ≤ 1 → s.agent.requests.length < 4 →
          t.agent = { s.agent with requests := s.agent.requests ++ [{ source := .station p, payload := payload }] } ∧
            mgmtCounted s t .requests 1 ∧ onlyChanges [.pins, .sprs, .txPool, .counters, .agent] s t) ∧
        ∀ reason : Nat,
          (payload.length < 3 ∧ reason = 1) ∨ (256 < payload.length ∧ reason = 2) ∨
            (3 ≤ payload.length ∧ payload.length ≤ 256 ∧ 1 < (byteAt payload 2).toNat ∧ reason = 4) ∨
            (3 ≤ payload.length ∧ payload.length < 6 ∧ (byteAt payload 2).toNat ≤ 1 ∧ reason = 1) ∨
            (6 ≤ payload.length ∧ payload.length ≤ 256 ∧ (byteAt payload 2).toNat ≤ 1 ∧
              4 ≤ s.agent.requests.length ∧ reason = 3) →
            mgmtCounted s t .droppedRequests 1 ∧ t.agent.requests = s.agent.requests ∧
              recordAccepted s t .mgmtDropped (.port p) none (BitVec.ofNat 16 reason) ∧
              onlyChanges [.pins, .sprs, .txPool, .counters, .agent, .events, .rxPool, .egress] s t)

/-! ### The Trunk Transmitter and the Transmit Scheduler -/

/-- TRANSMISSION_COMPLETION with nothing in flight does nothing; otherwise the segment is counted and leaves the in-flight
slot, the keepalive deadline is set afresh while UP, an END or WHOLE gives its frame back to the pool, whose
exhaustion-reported flag clears at 64 free cells and 8 descriptors, and is counted as a frame sent; and the latched segment, if
any, is in flight next, the latch empty, from which state the next selection is made. A HELLO that so starts gives the limits kept
for the entry to UP, and any other segment leaves them, by the model's reading of R76 (log 25; R11, R17, R34, R76, R86, R87,
R107). -/
def Obligations.CompletionFreesTheFrameAndStartsTheLatch : Prop :=
  (∀ s : State, s.atRest → s.trunkTx.inFlight = none → exec .transmissionCompletion s = .next s) ∧
  ∀ (s : State) (g : Segment), s.atRest → s.trunkTx.inFlight = some g →
    (∀ c a, s.agent.mode = .deferring c a → g.replyDone ≠ some a) →
    ∃ t, exec .transmissionCompletion s = .next t ∧ t.trunkTx.inFlight = s.trunkTx.latch ∧
      trunkCounted s t .segmentsSent ∧
      (s.link.state = .up → t.link.keepaliveDeadline = some (s.now + 250#32)) ∧
      (s.link.state ≠ .up → t.link = s.link) ∧
      (∀ q, g = .control q → trunkCounted s t .controlSent ∧ t.txPool = s.txPool) ∧
      (∀ h q, g = .hello h q → t.txPool = s.txPool ∧
        t.counters.trunk = (s.counters.plusTrunk .segmentsSent).trunk) ∧
      (∀ d, g = .data d → levelCounted s t d.level .segmentsSent 1 ∧
        (d.kind = .start ∨ d.kind = .middle → t.txPool = s.txPool) ∧
        (d.kind = .end_ ∨ d.kind = .whole →
          levelCounted s t d.level .framesSent 1 ∧
            t.txPool.freeCells = s.txPool.freeCells ++ d.frame.cells.map (·.number) ∧
            t.txPool.freeDescs = s.txPool.freeDescs ++ [d.frame.number] ∧
            flagAfterReturn t.txPool.freeCells t.txPool.freeDescs s.txPool.exhaustionReported
              t.txPool.exhaustionReported)) ∧
      onlyChanges [.trunkTx, .link, .counters, .txPool, .sched] s t ∧
      ∃ u : State, onlyChanges [.trunkTx, .link, .counters, .txPool] s u ∧ u.trunkTx.inFlight = s.trunkTx.latch ∧
        u.trunkTx.latch = none ∧ (∀ h q, s.trunkTx.latch = some (.hello h q) → u.trunkTx.lastHello = some q) ∧
        ((∀ h q, s.trunkTx.latch ≠ some (.hello h q)) → u.trunkTx.lastHello = s.trunkTx.lastHello) ∧
        u.link =
          (if s.link.state = .up then { s.link with keepaliveDeadline := some (s.now + 250#32) } else s.link) ∧
        (s.trunkTx.latch = none → t = u) ∧ (s.trunkTx.latch ≠ none → selectionFollows u t)

/-- Selecting the next segment of the top frame, with no CONTROL due and no new frame to start, when the top's level has
credit. A MIDDLE, below the last index, advances the top entry's next segment index by 1 and removes its suspension deadline;
its protected mark, the queues and the rest of the stack stay. An END, at the last index, pops the entry, and the entry beneath
is the top. Either is placed with its level's next sequence number. A top level without credit places nothing, and nor does an
empty stack (R18, R21, R22, R25, R26). -/
def Obligations.SelectingAMiddleAdvancesTheTopEntry : Prop :=
  (∀ s : State, s.link.controlDue = false → (∀ l, ¬s.mayStart l) → s.sched.stack = [] → s.select = s) ∧
  ∀ (s : State) (top : TxEntry) (below : List TxEntry) (segment : DataSegment), s.link.controlDue = false →
    (∀ l, ¬s.mayStart l) → s.sched.stack = top :: below → s.trunkTx.latch = none →
    segment =
      { kind := .middle, level := top.frame.level, tag := top.tag, seq := s.sched.nextSeq.get top.frame.level
        index := top.nextIndex, frame := top.frame } →
      (s.mayCarry top.frame.level →
        s.select.sched.queues = s.sched.queues ∧ s.select.sched.nextTag = s.sched.nextTag ∧
          s.select.sched.nextSeq =
            s.sched.nextSeq.set top.frame.level (s.sched.nextSeq.get top.frame.level + 1#16) ∧
          onlyChanges [.sched, .trunkTx] s s.select ∧
          (top.nextIndex + 1 < segmentCount top.frame.frameLength →
            s.select.sched.stack =
                { top with nextIndex := top.nextIndex + 1, suspensionDeadline := none } :: below ∧
              s.select.trunkTx.placed = some (.data segment)) ∧
          (segmentCount top.frame.frameLength ≤ top.nextIndex + 1 →
            s.select.sched.stack = below ∧
              s.select.trunkTx.placed = some (.data { segment with kind := .end_ }))) ∧
      (¬s.mayCarry top.frame.level → s.select = s)

/-- A new frame is started at the highest level where one may start, over an open frame only when that is neither atomic nor
of a level that is not preemptible and no frame is protected. The frame at the head of that queue leaves it with the next tag
and sequence number of its level. A WHOLE, of 1 to 64 bytes, leaves the stack as it is, and over an open frame a WHOLE
insertion is counted. A START, of more, is pushed with next index 1 and, over an open frame, counts a preemption; the suspended
frame gets a deadline, one max suspension from now, unless it holds one or max suspension is 0 (R20, R22, R23, R24, R31). -/
def Obligations.SelectingAWholeLeavesTheStack : Prop :=
  (∀ (s : State) (l : Level), s.startLevel = some l ↔ s.mayStart l ∧ ∀ m, l < m → ¬s.mayStart m) ∧
  ∀ (s : State) (l : Level) (f : TxDescriptor) (rest : List TxDescriptor) (segment : DataSegment),
    s.link.controlDue = false → s.mayStart l → (∀ m, l < m → ¬s.mayStart m) → s.sched.queues.get l = f :: rest →
    s.trunkTx.latch = none →
    segment =
      { kind := .whole, level := l, tag := s.sched.nextTag.get l, seq := s.sched.nextSeq.get l, index := 0
        frame := f } →
      s.select.sched.queues = s.sched.queues.set l rest ∧
        s.select.levelQueueCells l + f.cells.length = s.levelQueueCells l ∧
        s.select.sched.nextTag = s.sched.nextTag.set l (s.sched.nextTag.get l + 1#8) ∧
        s.select.sched.nextSeq = s.sched.nextSeq.set l (s.sched.nextSeq.get l + 1#16) ∧
        onlyChanges [.sched, .trunkTx, .counters] s s.select ∧
        (1 ≤ f.frameLength → f.frameLength ≤ 64 →
          s.select.sched.stack = s.sched.stack ∧ s.select.trunkTx.placed = some (.data segment) ∧
            s.select.counters =
              (if s.sched.stack = [] then s.counters else s.counters.plusLevel l .wholeInsertions 1)) ∧
        (65 ≤ f.frameLength →
          s.select.trunkTx.placed = some (.data { segment with kind := .start }) ∧
            s.select.counters =
              (if s.sched.stack = [] then s.counters else s.counters.plusLevel l .preemptions 1) ∧
            ∃ suspended : List TxEntry,
              s.select.sched.stack =
                  { frame := f, tag := s.sched.nextTag.get l, nextIndex := 1, atomic := f.atomic
                    suspensionDeadline := none, protectedMark := false } :: suspended ∧
                (s.sched.stack = [] → suspended = []) ∧
                ∀ top below most, s.sched.stack = top :: below →
                  most = (s.config.active.levels.get top.frame.level).maxSuspension →
                    suspended =
                      { top with
                        suspensionDeadline :=
                          if top.suspensionDeadline = none ∧ most ≠ 0 then some (s.now + BitVec.ofNat 32 most)
                          else top.suspensionDeadline } :: below)

/-! ### Timer events -/

/-- HOLD_OFF_EXPIRY on a DOWN link whose deadline the Time Base has reached enters HELLO: heard is no, the HELLO deadline
is 1 ms on, and a HELLO with heard-you 0 and the free cells of each level under the Active allotments starts.
HELLO_DEADLINE_EXPIRY in HELLO moves the deadline 1 ms on and places another HELLO when the latch is empty. The limits of a HELLO
that starts are those kept for the entry to UP, and a HELLO that waits in the latch keeps none (log 25; R71, R73, R76). -/
def Obligations.HandshakeTimersSendHellos : Prop :=
  (∀ (s : State) (d : Time), s.atRest → s.link.state = .down → s.link.holdOff = some d → (s.now - d).toNat < 2 ^ 31 →
    s.trunkTx.inFlight = none → s.trunkTx.latch = none →
      ∃ t, exec .holdOffExpiry s = .next t ∧
        t.link =
          { s.link with
            state := .hello, holdOff := none, heard := false, helloDeadline := some (s.now + 1000#32) } ∧
        t.trunkTx.inFlight =
          some (.hello false (Four.make fun l =>
            BitVec.ofNat 16 ((s.config.active.levels.get l).rxAllotment - s.heldCells l))) ∧
        t.trunkTx.latch = none ∧
        t.trunkTx.lastHello =
          some (Four.make fun l => BitVec.ofNat 16 ((s.config.active.levels.get l).rxAllotment - s.heldCells l)) ∧
        onlyChanges [.link, .trunkTx] s t) ∧
  ∀ (s : State) (d : Time), s.atRest → s.link.state = .hello → s.link.helloDeadline = some d →
    (s.now - d).toNat < 2 ^ 31 →
      ∃ t, exec .helloDeadlineExpiry s = .next t ∧ t.link = { s.link with helloDeadline := some (d + 1000#32) } ∧
        (s.trunkTx.latch ≠ none → t.trunkTx = s.trunkTx) ∧
        (∀ limits, limits = (Four.make fun l =>
            BitVec.ofNat 16 ((s.config.active.levels.get l).rxAllotment - s.heldCells l)) →
          s.trunkTx.latch = none →
            (s.trunkTx.inFlight = none →
              t.trunkTx.inFlight = some (.hello s.link.heard limits) ∧ t.trunkTx.latch = none ∧
                t.trunkTx.lastHello = some limits) ∧
              (s.trunkTx.inFlight ≠ none →
                t.trunkTx.inFlight = s.trunkTx.inFlight ∧ t.trunkTx.latch = some (.hello s.link.heard limits) ∧
                  t.trunkTx.lastHello = s.trunkTx.lastHello)) ∧
        onlyChanges [.link, .trunkTx] s t

/-- SILENCE_DEADLINE_EXPIRY takes an UP link down with cause SILENCE. At that DOWN event each Level Queue holds first the
station frames of its level that were open or whose END or WHOLE had not completed, when the level retains, then the
station frames it held; every other frame taken in hand and every queued Agent frame is discarded, its cells and descriptor
back in the Transmit Pool, and both are counted. Every open receive frame is aborted, top first, for its first reason or
LINK_LOSS, counted, its cells and descriptor back in the level part. After LINK_DOWN stand the RX_ABORT records and, when
frames were discarded, TX_LINKLOSS_DISCARD with their number (order: log 21). Each pending peer request is answered LINK_DOWN
from the reserve, oldest first, or its reply is counted as dropped; stated for notices off and a reserve that holds all answers
or none (R37, R38, R39, R40, R56, R62, R77, R79, R80, R159, R174), and for no command that awaits a trunk reply; the other is
CommandsWaitForTheirReply. -/
def Obligations.SilenceTakesTheLinkDownAndSettlesFrames : Prop :=
  ∀ (s : State) (d : Time) (inHand kept lost : Level → List TxDescriptor) (discarded : List TxDescriptor)
    (gone : List Aborted), s.atRest → s.link.state = .up → s.link.silenceDeadline = some d →
    (s.now - d).toNat < 2 ^ 31 → s.noCommandOnTrunk →
    (∀ l, inHand l =
      (slotFrame s.trunkTx.inFlight ++ slotFrame s.trunkTx.latch ++ s.sched.stack.map (·.frame)).filter
        (fun f => decide (f.level = l))) →
    (∀ l, kept l =
      (inHand l).filter fun f => decide (f.origin = .station) && (s.config.active.levels.get l).retain) →
    (∀ l, lost l =
      (inHand l).filter (fun f => !(decide (f.origin = .station) && (s.config.active.levels.get l).retain)) ++
        (s.sched.queues.get l).filter (fun f => !decide (f.origin = .station))) →
    discarded = lost 0 ++ lost 1 ++ lost 2 ++ lost 3 → gone = abortedFor .linkLoss s.reasm.stack →
      ∃ t, exec .silenceDeadlineExpiry s = .next t ∧ s.link.wentDown s.now .silence t.link ∧ settledDown s t .silence ∧
        keptThroughDown s t ∧
        (∀ l,
          t.sched.queues.get l =
              kept l ++ (s.sched.queues.get l).filter (fun f => decide (f.origin = .station)) ∧
            levelCounted s t l .linkLossRetained (kept l).length ∧
            levelCounted s t l .linkLossDiscarded (lost l).length) ∧
        t.txPool.freeDescs.Perm (s.txPool.freeDescs ++ discarded.map (·.number)) ∧
        t.txPool.freeCells.Perm (s.txPool.freeCells ++ discarded.flatMap fun f => chainNumbers f.cells) ∧
        abortsCounted s t gone ∧
        recordsTold s t
          ({ kind := .linkDown, subject := .none, stream := none, detail := 1#16 } ::
            (gone.map (·.told) ++
              if discarded = [] then []
              else
                [{ kind := .txLinklossDiscard, subject := .none, stream := none
                   detail := BitVec.ofNat 16 discarded.length }])) ∧
        (s.holdApart s.reasm.stack →
          t.rxPool.levelPart =
              { freeCells := s.rxPool.levelPart.freeCells ++ s.reasm.stack.flatMap s.cellsOf
                freeDescs := s.rxPool.levelPart.freeDescs ++ descsOf s.reasm.stack } ∧
            (∀ m ∈ descsOf s.reasm.stack, t.rxPool.desc m = none) ∧
            (s.noNotices → s.rxPool.reserve.freeDescs.Nodup →
              s.agent.peers.length ≤ s.rxPool.reserve.freeDescs.length →
              s.agent.peers.length ≤ s.rxPool.reserve.freeCells.length →
                mgmtCounted s t .replies s.agent.peers.length ∧
                  (∀ (i : Nat) e n c, s.agent.peers[i]? = some e → s.rxPool.reserve.freeDescs[i]? = some n →
                    s.rxPool.reserve.freeCells[i]? = some c →
                      t.rxPool.desc n =
                        some
                          { cls := .reserve, stream := e.replyStream, length := 5
                            chain :=
                              [{ number := c, bytes := replyBytes e.originalTag e.command .linkDown [] }]
                            holder := .egress, refCount := 1 }) ∧
                  ∀ p,
                    (t.egress.get p).queue =
                      (s.egress.get p).queue ++
                        ((s.agent.peers.zip s.rxPool.reserve.freeDescs).filter fun x => decide (x.1.port = p)).map
                          (·.2))) ∧
        (s.noNotices → s.rxPool.reserve.freeDescs = [] ∨ s.rxPool.reserve.freeCells = [] →
          mgmtCounted s t .repliesDropped s.agent.peers.length ∧ t.egress = s.egress)

/-- KEEPALIVE_DEADLINE_EXPIRY makes a CONTROL due and removes the deadline; ADVANCE_DEADLINE_EXPIRY of a level whose
computed limit is still ahead of its last-advertised value makes one due. With an idle line and an empty latch the CONTROL
starts at once with the advertised values, which are the last-advertised limits from then on; a selection prefers it to any data
segment. The computed limit of a level is e(L) plus the cells free under its allotment, and the advertised value is that limit
when it is ahead of the last one and the last one otherwise, so it never goes back. A data segment in sequence or after a gap
reports each level whose e(L) or held cells it moved: a limit ahead starts the advance time and its deadline, and one ahead by 8
or more makes a CONTROL due, a selection trigger; the reports are taken when the event is whole (log 15) (R17, R18, R19, R61, R84,
R85, R86, R87). -/
def Obligations.ControlFallsDueAndCarriesTheLimits : Prop :=
  (∀ (s : State) (l : Level) (expected : Four Half), s.reasm.expected = some expected →
    s.computedLimit l = expected.get l + BitVec.ofNat 16 (s.link.allotment.get l - s.heldCells l) ∧
      ∀ last, s.link.lastAdvertised.get l = some last →
        (isAhead (s.computedLimit l) last → s.advertisedValue l = s.computedLimit l) ∧
          (¬isAhead (s.computedLimit l) last → s.advertisedValue l = last)) ∧
  (∀ (s : State) (d : RxData) (expected : Four Half), s.receives d expected →
    (d.seq - expected.get d.level).toNat ≤ 32767 →
      ∃ t u k, exec (.segmentReceptionEnd .endDelimiter) s = .next t ∧ s.link.sawGood s.now k ∧
        u.reasm = t.reasm ∧ u.rxPool = t.rxPool ∧ reportsTaken s k u t ∧
        onlyChanges [.reception, .counters, .link, .reasm, .rxPool, .events, .egress, .agent] s u) ∧
  (∀ s : State, s.link.controlDue = true → s.trunkTx.latch = none →
    s.select.trunkTx.placed = some (.control (Four.make s.advertisedValue)) ∧
      s.select.link =
        { s.link with
          lastAdvertised := Four.make fun l => some (s.advertisedValue l)
          advanceTime := Four.all none
          advanceDeadline := Four.all none
          controlDue := false } ∧
      onlyChanges [.link, .trunkTx] s s.select) ∧
  (∀ (s : State) (d : Time), s.atRest → s.link.state = .up → s.link.keepaliveDeadline = some d →
    (s.now - d).toNat < 2 ^ 31 →
      ∃ t, exec .keepaliveDeadlineExpiry s = .next t ∧ t.link.keepaliveDeadline = none ∧ t.link.state = .up ∧
        (s.link.controlDue = true ∨ s.trunkTx.latch ≠ none →
          t.link = { s.link with keepaliveDeadline := none, controlDue := true } ∧ onlyChanges [.link] s t) ∧
        (s.link.controlDue = false → s.trunkTx.latch = none →
          (s.trunkTx.inFlight = none → t.trunkTx.inFlight = some (.control (Four.make s.advertisedValue))) ∧
            (s.trunkTx.inFlight ≠ none →
              t.trunkTx.inFlight = s.trunkTx.inFlight ∧
                t.trunkTx.latch = some (.control (Four.make s.advertisedValue))) ∧
            t.link.controlDue = false ∧ (∀ l, t.link.lastAdvertised.get l = some (s.advertisedValue l)) ∧
            t.link.advanceTime = Four.all none ∧ t.link.advanceDeadline = Four.all none) ∧
        onlyChanges [.link, .trunkTx, .sched, .counters] s t) ∧
  ∀ (s : State) (l : Level) (d : Time) (last : Half), s.atRest → s.link.state = .up →
    s.link.advanceDeadline.get l = some d → (s.now - d).toNat < 2 ^ 31 → s.link.lastAdvertised.get l = some last →
    1 ≤ (s.computedLimit l - last).toNat → (s.computedLimit l - last).toNat ≤ 32767 →
      ∃ t, exec (.advanceDeadlineExpiry l) s = .next t ∧ t.link.advanceDeadline.get l = none ∧
        (s.link.controlDue = true ∨ s.trunkTx.latch ≠ none →
          t.link = { s.link with advanceDeadline := s.link.advanceDeadline.set l none, controlDue := true } ∧
            onlyChanges [.link] s t) ∧
        (s.link.controlDue = false → s.trunkTx.latch = none →
          (s.trunkTx.inFlight = none → t.trunkTx.inFlight = some (.control (Four.make s.advertisedValue))) ∧
            (s.trunkTx.inFlight ≠ none → t.trunkTx.latch = some (.control (Four.make s.advertisedValue))) ∧
            t.link.controlDue = false ∧ t.link.lastAdvertised.get l = some (s.computedLimit l)) ∧
        onlyChanges [.link, .trunkTx, .sched, .counters] s t

/-- SUSPENSION_DEADLINE_EXPIRY marks the frame open at the level protected, removes its deadline, counts a protection and
records TX_PROTECT with the frame's trunk stream number and next segment index (R32). -/
def Obligations.SuspensionExpiryProtectsTheFrame : Prop :=
  ∀ (s : State) (l : Level) (d : Time) (e : TxEntry) (above below : List TxEntry), s.atRest →
    s.sched.stack = above ++ e :: below → (∀ x ∈ above ++ below, x.frame.level ≠ l) → e.frame.level = l →
    e.suspensionDeadline = some d → (s.now - d).toNat < 2 ^ 31 →
      ∃ t, exec (.suspensionDeadlineExpiry l) s = .next t ∧
        t.sched =
          { s.sched with
            stack := above ++ { e with suspensionDeadline := none, protectedMark := true } :: below } ∧
        levelCounted s t l .protections 1 ∧
        recordAccepted s t .txProtect (.level l) (some e.frame.trunkStream) (BitVec.ofNat 16 e.nextIndex) ∧
        onlyChanges [.sched, .counters, .events, .rxPool, .egress, .agent] s t ∧
        (s.noNotices → onlyChanges [.sched, .counters, .events] s t)

/-- AGE_DEADLINE_EXPIRY removes the deadline of the frame open at the level; a frame not yet discarding is marked AGE and
its cells return to the level part, one already discarding keeps its reason. The return is reported for credit, when the event
is whole (log 15) (R55, R57, R61, R65, R85). -/
def Obligations.AgeExpiryMarksTheFrame : Prop :=
  ∀ (s : State) (l : Level) (d : Time) (e : RxEntry) (above below : List RxEntry), s.atRest →
    s.reasm.stack = above ++ e :: below → (∀ x ∈ above ++ below, x.level ≠ l) → e.level = l →
    e.ageDeadline = some d → (s.now - d).toNat < 2 ^ 31 →
      ∃ t, exec (.ageDeadlineExpiry l) s = .next t ∧
        t.reasm =
          { s.reasm with
            stack := above ++ { e with ageDeadline := none, discarding := some (e.discarding.getD .age) } :: below } ∧
        (∀ m, e.descriptor ≠ some m → t.rxPool.desc m = s.rxPool.desc m) ∧
        (e.discarding.isSome = true → onlyChanges [.reasm] s t) ∧
        (∀ n f, e.discarding = none → e.descriptor = some n → s.rxPool.desc n = some f → f.cls = .level l →
          t.rxPool.desc n = some { f with chain := [] } ∧
            t.rxPool.levelPart.freeCells = s.rxPool.levelPart.freeCells ++ f.chain.map (·.number) ∧
            t.rxPool.levelPart.freeDescs = s.rxPool.levelPart.freeDescs) ∧
        t.events = s.events ∧ onlyChanges [.reasm, .rxPool, .link, .sched, .trunkTx, .counters] s t ∧
        ∃ u : State, u.reasm = t.reasm ∧ u.rxPool = t.rxPool ∧ reportsTaken s s.link u t ∧
          onlyChanges [.reasm, .rxPool, .link] s u

/-- PEER_DEADLINE_EXPIRY removes the entry with the local tag, answers its requester PEER_TIMEOUT in the management
reserve or counts the reply dropped, counts a peer timeout and records it (R159, R173). -/
def Obligations.PeerExpiryAnswersTheRequester : Prop :=
  ∀ (s : State) (e : PeerEntry) (older newer : List PeerEntry), s.atRest → s.agent.peers = older ++ e :: newer →
    (∀ x ∈ older ++ newer, x.localTag ≠ e.localTag) → (s.now - e.deadline).toNat < 2 ^ 31 →
      ∃ t, exec (.peerDeadlineExpiry e.localTag) s = .next t ∧ t.agent.peers = older ++ newer ∧
        t.agent.requests = s.agent.requests ∧ t.agent.mode = s.agent.mode ∧ mgmtCounted s t .peerTimeouts 1 ∧
        recordAccepted s t .peerTimeout (.port e.port) none (e.localTag.setWidth 16) ∧
        (s.noNotices → s.rxPool.reserve.freeDescs ≠ [] → s.rxPool.reserve.freeCells ≠ [] →
          mgmtCounted s t .replies 1 ∧
            ∃ n, reserveFramePlaced s t e.port n e.replyStream (replyBytes e.originalTag e.command .peerTimeout [])) ∧
        (s.noNotices → s.rxPool.reserve.freeDescs = [] ∨ s.rxPool.reserve.freeCells = [] →
          mgmtCounted s t .repliesDropped 1 ∧ onlyChanges [.agent, .counters, .events] s t) ∧
        onlyChanges [.agent, .rxPool, .egress, .counters, .events] s t

/-- COPY_BACK_COMPLETION while copy-back is RUNNING: the Shadow bank equals the Active bank, copy-back is IDLE, and
COMMIT_DONE with the generation is offered: accepted with 30 or fewer records held, refused into a new loss record with 31
or more and none held, and counted in the loss record that is held otherwise (R148, R180). -/
def Obligations.CopyBackEndsAndIsRecorded : Prop :=
  ∀ (s : State) (began : Time), s.atRest → s.config.copyBack = some began →
    ∃ t, exec .copyBackCompletion s = .next t ∧
      t.config = { s.config with shadow := s.config.active, copyBack := none } ∧
      recordAccepted s t .commitDone .none none s.config.generation ∧
      (31 ≤ s.events.records.length → (∀ x ∈ s.events.records, x.kind ≠ .eventsLost) →
        t.events.nextSeq = s.events.nextSeq + 1#16 ∧
          t.events.records =
            s.events.records ++
              [{ sequence := s.events.nextSeq, time := s.time.timeBase, kind := .eventsLost, subject := .none
                 stream := none, detail := 1#16 }]) ∧
      (∀ older loss newer, 31 ≤ s.events.records.length → s.events.records = older ++ loss :: newer →
        loss.kind = .eventsLost → (∀ x ∈ older ++ newer, x.kind ≠ .eventsLost) →
          t.events.nextSeq = s.events.nextSeq ∧
            t.events.records =
                older ++
                  { loss with detail := if loss.detail = 65535#16 then loss.detail else loss.detail + 1#16 } :: newer ∧
            onlyChanges [.config, .events] s t) ∧
      (s.noNotices → onlyChanges [.config, .events] s t) ∧
      onlyChanges [.config, .events, .rxPool, .egress, .agent, .counters] s t

/-- A record accepted while notices are enabled, of at least the threshold's severity and with the latch clear, sends a
NOTICE: 19 bytes that carry the record, from the reserve, at the tail of the notice port's queue under the notice stream,
setting the latch; when the reserve cannot grant it nothing is built and it is counted as dropped. An accepted record that
fails any of the three, and a record refused into a loss record that is held, send none. This holds of every record offered;
the loss record is the one accepted when the queue is full (R180, R182, R183, R193). Last, COMMIT_DONE as an example, an INFO
record. -/
def Obligations.AcceptedRecordSendsANotice : Prop :=
  (∀ (s : State) (k : EventKind) (subject : Subject) (stream : Option Half) (detail : Half) (record : EventRecord)
      (part : PartSettings),
    part = s.config.active.part →
    (s.events.records.length < 31 ∧
        record =
          { sequence := s.events.nextSeq, time := s.now, kind := k, subject := subject, stream := stream
            detail := detail }) ∨
      (31 ≤ s.events.records.length ∧ (∀ x ∈ s.events.records, x.kind ≠ .eventsLost) ∧
        record =
          { sequence := s.events.nextSeq, time := s.now, kind := .eventsLost, subject := .none, stream := none
            detail := 1#16 }) →
      (s.offerEvent k subject stream detail).events =
          { records := s.events.records ++ [record], nextSeq := s.events.nextSeq + 1#16 } ∧
        (part.noticeEnabled = false ∨ record.kind.severity.code < part.noticeThreshold.code ∨
          s.agent.noticeLatch = true → onlyChanges [.events] s (s.offerEvent k subject stream detail)) ∧
        (part.noticeEnabled = true → part.noticeThreshold.code ≤ record.kind.severity.code →
          s.agent.noticeLatch = false →
          (s.rxPool.reserve.freeDescs ≠ [] → s.rxPool.reserve.freeCells ≠ [] →
            ∃ t n, s.offerEvent k subject stream detail = t ∧ t.agent = { s.agent with noticeLatch := true } ∧
              t.counters = s.counters.plusMgmt .noticesSent ∧
              reserveFramePlaced s t part.noticePort n part.noticeStream
                ([0#8, 0#8, 3#8] ++ halfBytes record.sequence ++ wordBytes record.time ++
                  [BitVec.ofNat 8 record.kind.code, BitVec.ofNat 8 record.kind.severity.code, record.subject.code,
                    if record.stream.isSome then 0x80#8 else 0#8] ++
                  halfBytes (record.stream.getD 0#16) ++ halfBytes record.detail ++ [0#8, 0#8]) ∧
              onlyChanges [.events, .agent, .counters, .rxPool, .egress] s t) ∧
          (s.rxPool.reserve.freeDescs = [] ∨ s.rxPool.reserve.freeCells = [] →
            ∃ t, s.offerEvent k subject stream detail = t ∧ t.counters = s.counters.plusMgmt .noticesDropped ∧
              onlyChanges [.events, .counters] s t))) ∧
  (∀ (s : State) (k : EventKind) (subject : Subject) (stream : Option Half) (detail : Half),
    31 ≤ s.events.records.length → (∃ x ∈ s.events.records, x.kind = .eventsLost) →
      onlyChanges [.events] s (s.offerEvent k subject stream detail)) ∧
  ∀ (s : State) (began : Time) (part : PartSettings) (record : EventRecord), s.atRest →
    s.config.copyBack = some began → s.events.records.length < 31 → part = s.config.active.part →
    part.noticeEnabled = true → part.noticeThreshold = .info → s.agent.noticeLatch = false →
    record = { sequence := s.events.nextSeq, time := s.now, kind := .commitDone, subject := .none, stream := none
               detail := s.config.generation } →
      ∃ t, exec .copyBackCompletion s = .next t ∧
        (s.rxPool.reserve.freeDescs ≠ [] → s.rxPool.reserve.freeCells ≠ [] →
          t.agent = { s.agent with noticeLatch := true } ∧ mgmtCounted s t .noticesSent 1 ∧
            ∃ n, reserveFramePlaced s t part.noticePort n part.noticeStream
              ([0#8, 0#8, 3#8] ++ halfBytes record.sequence ++ wordBytes record.time ++ [9#8, 1#8, 0#8, 0#8, 0#8, 0#8] ++
                halfBytes record.detail ++ [0#8, 0#8])) ∧
        (s.rxPool.reserve.freeDescs = [] ∨ s.rxPool.reserve.freeCells = [] →
          mgmtCounted s t .noticesDropped 1 ∧ onlyChanges [.config, .events, .counters] s t)

/-- A timer command whose deadline is absent or not yet reached, and a copy-back completion while copy-back is IDLE, change
nothing: the event has not come about (R186; the model's reading, log 4). -/
def Obligations.TimerNotDueChangesNothing : Prop :=
  ∀ s : State, s.agent.headReady = none →
    let absentOrAhead : Option Time → Prop := fun d => ∀ x, d = some x → 2 ^ 31 ≤ (s.now - x).toNat
    (s.link.state ≠ .down ∨ absentOrAhead s.link.holdOff → exec .holdOffExpiry s = .next s) ∧
      (s.link.state ≠ .hello ∨ absentOrAhead s.link.helloDeadline → exec .helloDeadlineExpiry s = .next s) ∧
      (s.link.state ≠ .up ∨ absentOrAhead s.link.silenceDeadline → exec .silenceDeadlineExpiry s = .next s) ∧
      (s.link.state ≠ .up ∨ absentOrAhead s.link.keepaliveDeadline → exec .keepaliveDeadlineExpiry s = .next s) ∧
      (∀ l, s.link.state ≠ .up ∨ absentOrAhead (s.link.advanceDeadline.get l) →
        exec (.advanceDeadlineExpiry l) s = .next s) ∧
      (∀ l, (∀ e ∈ s.sched.stack, e.frame.level = l → absentOrAhead e.suspensionDeadline) →
        exec (.suspensionDeadlineExpiry l) s = .next s) ∧
      (∀ l, (∀ e ∈ s.reasm.stack, e.level = l → absentOrAhead e.ageDeadline) →
        exec (.ageDeadlineExpiry l) s = .next s) ∧
      (∀ tag, (∀ e ∈ s.agent.peers, e.localTag = tag → absentOrAhead (some e.deadline)) →
        exec (.peerDeadlineExpiry tag) s = .next s) ∧
      (s.config.copyBack = none → exec .copyBackCompletion s = .next s)

/-! ### Egress -/

/-- EGRESS_FRAME_START: a transmitter whose queue is not empty sends its head: its stream number, its length, its payload and
the CRC over them; with an empty queue nothing starts. EGRESS_COMPLETION of a frame in transmission: frames out is counted, the
head leaves its queue, and the reference count falls by 1; at 0 the frame is released, its cells and then its descriptor going
back to their part. The level part's exhaustion-reported flag then clears at 64 free cells and 8 descriptors; a reserve return
leaves it. The level's freed cells are reported for credit (log 15). The transmitter is IDLE for a byte time (log 12; R85, R115,
R116, R117, R119, R127, R128, R129). Stated for a frame that no deferred command awaits; the other is CommandsWaitForTheirReply. -/
def Obligations.EgressSendsAndReleasesTheHead : Prop :=
  (∀ (s : State) (p : Port), s.atRest →
    ((s.egress.get p).queue = [] → exec (.egressFrameStart p) s = .next s) ∧
    ((s.egress.get p).queue ≠ [] →
      ∃ t, exec (.egressFrameStart p) s = .next t ∧ (t.egress.get p).state = .sending ∧
        (t.egress.get p).queue = (s.egress.get p).queue ∧ (∀ q, q ≠ p → t.egress.get q = s.egress.get q) ∧
        onlyChanges [.egress] s t ∧
        ∀ n f bytes, (s.egress.get p).queue.head? = some n → s.rxPool.desc n = some f →
          (chainBytes f.chain).length = f.length →
          bytes = halfBytes f.stream ++ halfBytes (BitVec.ofNat 16 f.length) ++ chainBytes f.chain →
            t.stationTransmitFrame p = some (bytes ++ halfBytes (crc16 bytes)))) ∧
  ∀ (s : State) (p : Port) (n : Nat) (rest : List Nat) (f : RxDescriptor), s.atRest →
    (s.egress.get p).state = .sending → (s.egress.get p).queue = n :: rest → s.rxPool.desc n = some f →
    sparseRising s.rxPool.descs = true → (∀ c, s.agent.mode ≠ .deferring c (.station p n)) →
      ∃ t, exec (.egressCompletion p) s = .next t ∧ portCounted s t p .framesOut ∧ (t.egress.get p).queue = rest ∧
        (t.egress.get p).state = .idleGap ∧ (∀ q, q ≠ p → t.egress.get q = s.egress.get q) ∧
        (2 ≤ f.refCount → t.rxPool = s.rxPool.putDesc n { f with refCount := f.refCount - 1 } ∧
          onlyChanges [.counters, .egress, .rxPool] s t) ∧
        (f.refCount ≤ 1 → t.rxPool.desc n = none ∧ (∀ m, m ≠ n → t.rxPool.desc m = s.rxPool.desc m) ∧
          (∀ l, f.cls = .level l →
            t.rxPool.levelPart.freeCells = s.rxPool.levelPart.freeCells ++ f.chain.map (·.number) ∧
              t.rxPool.levelPart.freeDescs = s.rxPool.levelPart.freeDescs ++ [n] ∧
              flagAfterReturn t.rxPool.levelPart.freeCells t.rxPool.levelPart.freeDescs s.rxPool.exhaustionReported
                t.rxPool.exhaustionReported ∧
              t.rxPool.reserve = s.rxPool.reserve) ∧
          (f.cls = .reserve →
            t.rxPool.reserve.freeCells = s.rxPool.reserve.freeCells ++ f.chain.map (·.number) ∧
              t.rxPool.reserve.freeDescs = s.rxPool.reserve.freeDescs ++ [n] ∧
              t.rxPool.exhaustionReported = s.rxPool.exhaustionReported ∧
              t.rxPool.levelPart = s.rxPool.levelPart)) ∧
        onlyChanges [.counters, .egress, .rxPool, .link, .sched, .trunkTx] s t ∧
        ∃ u : State, u.rxPool = t.rxPool ∧ reportsTaken s s.link u t ∧
          onlyChanges [.counters, .egress, .rxPool, .link] s u

/-! ### Management commands -/

/-- STATUS answers OK with the STATUS block, 56 bytes laid out as section 11.3 gives, read before the reply's own claim
(R161, R191). -/
def Obligations.StatusReportsTheBlock : Prop :=
  ∀ (s : State) (r : Request) (p : Port), s.hasAtHead r p 1#8 →
    ∃ t block, exec .status s = .next t ∧ replied s s.counters s.agent.noticeLatch t r p .ok block ∧
      onlyChanges [.rxPool, .egress, .agent, .counters] s t ∧ block.length = 56 ∧
      block.take 5 = [0x4B#8, 0x5A#8, 0x04#8, 0x40#8, 2#8] ∧
      (block.drop 5).take 1 = [BitVec.ofNat 8 s.time.lastCause.code] ∧
      (block.drop 6).take 4 = wordBytes s.time.lastTrafficTime ∧ (block.drop 10).take 4 = wordBytes s.time.trafficRestarts ∧
      (block.drop 14).take 1 = [match s.link.state with | .down => 0#8 | .hello => 1#8 | .up => 2#8] ∧
      (block.drop 15).take 2 = halfBytes s.link.generation ∧
      (block.drop 17).take 1 = [BitVec.ofNat 8 s.link.lastCause.code] ∧
      (block.drop 18).take 2 = halfBytes s.config.generation ∧
      (block.drop 20).take 1 = [if s.config.copyBack.isSome then 1#8 else 0#8] ∧
      (∀ l : Level, (block.drop (21 + 2 * l.val)).take 2 = halfBytes (BitVec.ofNat 16 (s.levelQueueCells l)) ∧
        (s.sched.queues.get l = [] → (block.drop (29 + 4 * l.val)).take 4 = wordBytes 0#32) ∧
        ∀ f rest, s.sched.queues.get l = f :: rest →
          (block.drop (29 + 4 * l.val)).take 4 = wordBytes (s.now - f.admissionTime)) ∧
      (block.drop 45).take 2 = [BitVec.ofNat 8 s.sched.stack.length, BitVec.ofNat 8 s.reasm.stack.length] ∧
      (block.drop 47).take 2 = halfBytes (BitVec.ofNat 16 s.txPool.freeCells.length) ∧
      (block.drop 49).take 1 = [BitVec.ofNat 8 s.txPool.freeDescs.length] ∧
      (block.drop 50).take 2 = halfBytes (BitVec.ofNat 16 s.rxPool.levelPart.freeCells.length) ∧
      block.drop 52 =
        [BitVec.ofNat 8 s.rxPool.levelPart.freeDescs.length, BitVec.ofNat 8 s.rxPool.reserve.freeCells.length,
          BitVec.ofNat 8 s.rxPool.reserve.freeDescs.length, BitVec.ofNat 8 s.events.records.length]

/-- READ ENTRIES: short arguments are MALFORMED; then an unknown table or bank is RANGE, the Shadow bank during copy-back is
BUSY, a count outside 1 to 16 or a first index outside the table is RANGE; otherwise the entries from the first index, up to
the count or the table's last, are returned in their encoding, which is laid out byte by byte, an invalid entry as zeros. The
tables are unchanged (R142, R158, R162, R191, R192). -/
def Obligations.ReadEntriesReturnsTheBank : Prop :=
  (∀ (bank : Bank) (table : Table) (i : Nat), bank.laidOut table i (bank.entryBytes table i)) ∧
  ∀ (s : State) (r : Request) (p : Port), s.hasAtHead r p 2#8 →
    ∃ t status results, exec .readEntries s = .next t ∧
      replied s s.counters s.agent.noticeLatch t r p status results ∧
      onlyChanges [.rxPool, .egress, .agent, .counters] s t ∧ (status ≠ .ok → results = []) ∧
      (r.args.length < 5 → status = .malformed) ∧
      (5 ≤ r.args.length →
        (tableOfCode (byteAt r.args 0) = none ∨ 2 ≤ (byteAt r.args 1).toNat → status = .range) ∧
        ∀ table, tableOfCode (byteAt r.args 0) = some table →
          (byteAt r.args 1 = 1#8 → s.config.copyBack.isSome = true → status = .busy) ∧
          ∀ bank, (byteAt r.args 1 = 0#8 ∧ bank = s.config.active) ∨
              (byteAt r.args 1 = 1#8 ∧ s.config.copyBack = none ∧ bank = s.config.shadow) →
            ((byteAt r.args 4).toNat = 0 ∨ 16 < (byteAt r.args 4).toNat ∨ table.size ≤ (halfAt r.args 2).toNat →
              status = .range) ∧
            ∀ k, k = min (byteAt r.args 4).toNat (table.size - (halfAt r.args 2).toNat) →
              1 ≤ (byteAt r.args 4).toNat → (byteAt r.args 4).toNat ≤ 16 → (halfAt r.args 2).toNat < table.size →
                status = .ok ∧
                  results = r.args.take 4 ++ [BitVec.ofNat 8 k] ++
                    (List.range' (halfAt r.args 2).toNat k).flatMap fun i => bank.entryBytes table i)

/-- WRITE ENTRY and CLEAR SHADOW act on the Shadow bank alone. A WRITE ENTRY that ends before its entry is MALFORMED; then the
first check that fails decides: BUSY during copy-back, RANGE for an unknown table or an index outside it, INVALID for a field,
bit or byte that its encoding does not admit (of a port mask above 15 by the model's choice, log 35), DUPLICATE when another
index holds its key. Otherwise the entry replaces the one at the index whole; a Stream or Delivery Table entry with valid 0
makes it invalid, whatever its other bytes. CLEAR SHADOW without its argument is MALFORMED; it resets the named table, or all
for code 0, and is RANGE above 5. A reply the reserve cannot grant is dropped, and the write stands (R136 to R142, R144, R158, R159,
R163, R191, R192). -/
def Obligations.WritesReachTheShadowBankAlone : Prop :=
  (∀ (s : State) (r : Request) (p : Port) (code i size length : Nat) (content : List Byte), s.hasAtHead r p 3#8 →
    code = (byteAt r.args 0).toNat → i = (halfAt r.args 1).toNat → content = r.args.drop 3 →
    tableShape code size length →
      ∃ t status, exec .writeEntry s = .next t ∧ replied s s.counters s.agent.noticeLatch t r p status [] ∧
        onlyChanges [.config, .rxPool, .egress, .agent, .counters] s t ∧
        t.config = { s.config with shadow := t.config.shadow } ∧
        (status ≠ .ok → t.config = s.config) ∧
        (r.args.length < 3 + length → status = .malformed) ∧
        (3 + length ≤ r.args.length → s.config.copyBack.isSome = true → status = .busy) ∧
        (3 + length ≤ r.args.length → s.config.copyBack = none →
          (size ≤ i → status = .range) ∧
          (i < size →
            ((code = 1 ∨ code = 2) → (byteAt content 0).getLsbD 7 = false →
              status = .ok ∧
                (code = 1 →
                  t.config.shadow = { s.config.shadow with streams := t.config.shadow.streams } ∧
                    ∀ j, sparseGet j t.config.shadow.streams =
                      if j = i then none else sparseGet j s.config.shadow.streams) ∧
                (code = 2 →
                  t.config.shadow = { s.config.shadow with deliveries := t.config.shadow.deliveries } ∧
                    ∀ j, sparseGet j t.config.shadow.deliveries =
                      if j = i then none else sparseGet j s.config.shadow.deliveries)) ∧
            (code = 1 → (byteAt content 0).getLsbD 7 = true →
              (streamInvalid content → status = .invalid) ∧
              ∀ e : StreamEntry, e.writtenAs content → ¬streamInvalid content →
                ((∃ x ∈ s.config.shadow.streams, x.1 ≠ i ∧ x.2.matchPort = e.matchPort ∧ x.2.stream = e.stream) →
                  status = .duplicate) ∧
                ((∀ x ∈ s.config.shadow.streams, x.1 ≠ i → ¬(x.2.matchPort = e.matchPort ∧ x.2.stream = e.stream)) →
                  status = .ok ∧ t.config.shadow = { s.config.shadow with streams := t.config.shadow.streams } ∧
                    ∀ j, sparseGet j t.config.shadow.streams =
                      if j = i then some e else sparseGet j s.config.shadow.streams)) ∧
            (code = 2 → (byteAt content 0).getLsbD 7 = true →
              (deliveryInvalid content → status = .invalid) ∧
              ∀ e : DeliveryEntry, e.writtenAs content → ¬deliveryInvalid content →
                ((∃ x ∈ s.config.shadow.deliveries, x.1 ≠ i ∧ x.2.stream = e.stream) → status = .duplicate) ∧
                ((∀ x ∈ s.config.shadow.deliveries, x.1 ≠ i → x.2.stream ≠ e.stream) →
                  status = .ok ∧
                    t.config.shadow = { s.config.shadow with deliveries := t.config.shadow.deliveries } ∧
                    ∀ j, sparseGet j t.config.shadow.deliveries =
                      if j = i then some e else sparseGet j s.config.shadow.deliveries)) ∧
            (code = 3 →
              (levelInvalid content → status = .invalid) ∧
              ∀ (e : LevelEntry) (l : Level), e.writtenAs content → i = l.val → ¬levelInvalid content →
                status = .ok ∧
                  t.config.shadow = { s.config.shadow with levels := s.config.shadow.levels.set l e }) ∧
            (code = 4 →
              (portInvalid content → status = .invalid) ∧
              ∀ (e : PortSettings) (q : Port), e.writtenAs content → i = q.val → ¬portInvalid content →
                status = .ok ∧ t.config.shadow = { s.config.shadow with ports := s.config.shadow.ports.set q e }) ∧
            (code = 5 →
              (partInvalid content → status = .invalid) ∧
              ∀ e : PartSettings, e.writtenAs content → ¬partInvalid content →
                status = .ok ∧ t.config.shadow = { s.config.shadow with part := e })))) ∧
  ∀ (s : State) (r : Request) (p : Port), s.hasAtHead r p 4#8 →
    ∃ t status, exec .clearShadow s = .next t ∧ replied s s.counters s.agent.noticeLatch t r p status [] ∧
      onlyChanges [.config, .rxPool, .egress, .agent, .counters] s t ∧ (status ≠ .ok → t.config = s.config) ∧
      (r.args = [] → status = .malformed) ∧
      ∀ code, r.args.head? = some code →
      (s.config.copyBack.isSome = true → status = .busy) ∧
      (s.config.copyBack = none → 6 ≤ code.toNat → status = .range) ∧
      (s.config.copyBack = none → code.toNat ≤ 5 → status = .ok ∧
        t.config =
          { s.config with
            shadow :=
              { streams := if code = 0#8 ∨ code = 1#8 then [] else s.config.shadow.streams
                deliveries := if code = 0#8 ∨ code = 2#8 then [] else s.config.shadow.deliveries
                levels := if code = 0#8 ∨ code = 3#8 then Four.make LevelEntry.default else s.config.shadow.levels
                ports := if code = 0#8 ∨ code = 4#8 then Four.all PortSettings.default else s.config.shadow.ports
                part := if code = 0#8 ∨ code = 5#8 then PartSettings.default else s.config.shadow.part } })

/-- COMMIT, first check that fails: MALFORMED without both argument bytes, BUSY during copy-back, GENERATION with the current
generation when the expected one is neither 65535 nor current, INVALID when the Shadow allotments sum above 1008; otherwise the
swap: the banks change roles, the generation rises by 1 from 65534 to 0, copy-back runs from now, and OK carries the new
generation. A commit whose reply the reserve cannot grant is in force (R145, R146, R158, R159, R163). -/
def Obligations.CommitSwapsTheBanks : Prop :=
  ∀ (s : State) (r : Request) (p : Port) (a b c d : Nat), s.hasAtHead r p 5#8 →
    a = (s.config.shadow.levels.get 0).rxAllotment → b = (s.config.shadow.levels.get 1).rxAllotment →
    c = (s.config.shadow.levels.get 2).rxAllotment → d = (s.config.shadow.levels.get 3).rxAllotment →
      ∃ t status results, exec .commit s = .next t ∧
        replied s s.counters s.agent.noticeLatch t r p status results ∧
        onlyChanges [.config, .rxPool, .egress, .agent, .counters] s t ∧
        (status ≠ .ok → t.config = s.config) ∧
        (r.args.length < 2 → status = .malformed ∧ results = []) ∧
        (2 ≤ r.args.length →
        (s.config.copyBack.isSome = true → status = .busy ∧ results = []) ∧
        (s.config.copyBack = none → halfAt r.args 0 ≠ 65535#16 → halfAt r.args 0 ≠ s.config.generation →
          status = .generation ∧ results = halfBytes s.config.generation) ∧
        (s.config.copyBack = none → halfAt r.args 0 = 65535#16 ∨ halfAt r.args 0 = s.config.generation →
          (1008 < a + b + c + d → status = .invalid ∧ results = []) ∧
          (a + b + c + d ≤ 1008 → status = .ok ∧ results = halfBytes t.config.generation ∧
            t.config =
              { active := s.config.shadow, shadow := s.config.active
                generation := if s.config.generation = 65534#16 then 0#16 else s.config.generation + 1#16
                copyBack := some s.now })))

/-- READ COUNTERS returns one group in the order of R185, each counter at its position, and clears exactly the counters returned
when its flag is 1; short arguments are MALFORMED; an unknown group, a selector out of range or another flag is RANGE. The reply,
or its drop where the reserve cannot grant it, is counted after the clearing (R158, R159, R164, R185, R191).
That the selector bytes are echoed where the selector is ignored is the model's choice (log 36). -/
def Obligations.ReadCountersReturnsAndClearsOneGroup : Prop :=
  (([.framesIn, .framesOut, .crc, .length, .runt, .noDescriptor, .noBuffer, .disabled, .queueFull, .dropAction, .mgmtRefused,
        .egressDrops] : List PortCounter).map fun c => c.position.val) = List.range 12 ∧
  (([.framesAdmitted, .framesSent, .segmentsSent, .preemptions, .wholeInsertions, .protections, .flushed, .linkLossRetained,
        .linkLossDiscarded, .framesDelivered, .aborts .lostSegment, .aborts .noDescriptor, .aborts .credit,
        .aborts .overlong, .aborts .age, .aborts .lostEnd, .aborts .tagMismatch, .aborts .lengthMismatch,
        .aborts .linkLoss, .orphans, .stale, .creditViolations] : List LevelCounter).map fun c => c.position.val) =
      List.range 22 ∧
  (([.segmentsSent, .segmentsReceived, .crcMalformed, .linkDowns .silence, .linkDowns .errorRate, .linkDowns .peerRestart,
        .linkDowns .admin, .linkDowns .restart, .linkDowns .signal, .controlSent, .controlReceived] :
        List TrunkCounter).map fun c => c.position.val) = List.range 11 ∧
  (([.requests, .replies, .repliesDropped, .droppedRequests, .peerTimeouts, .lateReplies, .noticesSent, .noticesDropped] :
        List MgmtCounter).map fun c => c.position.val) = List.range 8 ∧
  ∀ (s : State) (r : Request) (p : Port) (group selector flag : Nat), s.hasAtHead r p 6#8 →
    group = (byteAt r.args 0).toNat → selector = (halfAt r.args 1).toNat →
    flag = (byteAt r.args 3).toNat →
      ∃ t status results counters, exec .readCounters s = .next t ∧
        replied s counters s.agent.noticeLatch t r p status results ∧
        onlyChanges [.rxPool, .egress, .agent, .counters] s t ∧
        (r.args.length < 4 → status = .malformed ∧ results = [] ∧ counters = s.counters) ∧
        (4 ≤ r.args.length →
        (group = 0 ∨ 5 < group ∨ 1 < flag ∨ (group = 1 ∨ group = 2) ∧ 3 < selector ∨ group = 5 ∧ 511 < selector →
          status = .range ∧ results = [] ∧ counters = s.counters) ∧
        (group = 5 → selector < 512 → flag ≤ 1 → ∀ k, k = min 16 (512 - selector) →
          status = .ok ∧
            results = r.args.take 3 ++ [BitVec.ofNat 8 k] ++
              ((List.range' selector k).map s.counters.hit).flatMap wordBytes ∧
            (flag = 0 → counters = s.counters) ∧
            (flag = 1 → counters = { s.counters with hits := counters.hits } ∧
              ∀ i, counters.hit i = if selector ≤ i ∧ i < selector + k then 0#32 else s.counters.hit i)) ∧
        ∀ (values : List Count) (cleared : CounterBank), flag ≤ 1 →
          (∃ q : Port, group = 1 ∧ selector = q.val ∧ values = (s.counters.port.get q).toList ∧
            cleared = { s.counters with port := s.counters.port.set q (Vector.replicate 12 0#32) }) ∨
          (∃ l : Level, group = 2 ∧ selector = l.val ∧ values = (s.counters.level.get l).toList ∧
            cleared = { s.counters with level := s.counters.level.set l (Vector.replicate 22 0#32) }) ∨
          (group = 3 ∧ values = s.counters.trunk.toList ∧
            cleared = { s.counters with trunk := Vector.replicate 11 0#32 }) ∨
          (group = 4 ∧ values = s.counters.mgmt.toList ∧
            cleared = { s.counters with mgmt := Vector.replicate 8 0#32 }) →
            status = .ok ∧ results = r.args.take 3 ++ [BitVec.ofNat 8 values.length] ++ values.flatMap wordBytes ∧
              counters = (if flag = 1 then cleared else s.counters))

/-- READ EVENTS of 1 to 8 returns the oldest records, removes none and clears the notice latch, and any other count is
RANGE; ACK EVENTS of n removes the n oldest and returns how many are held, and an n above 32 or above the records held is
RANGE and removes nothing. Either without its argument is MALFORMED, and either has its effect when the reserve cannot grant its
reply (R158, R159, R165, R181). That a refused READ EVENTS leaves the notice latch is the model's choice (log 34). -/
def Obligations.EventsAreReadAndAcknowledged : Prop :=
  (∀ (s : State) (r : Request) (p : Port), s.hasAtHead r p 7#8 →
      ∃ t status results latch, exec .readEvents s = .next t ∧ replied s s.counters latch t r p status results ∧
        onlyChanges [.rxPool, .egress, .agent, .counters] s t ∧
        (r.args = [] → status = .malformed ∧ results = [] ∧ latch = s.agent.noticeLatch) ∧
        ∀ count, r.args.head? = some count →
        (1 ≤ count.toNat → count.toNat ≤ 8 →
          status = .ok ∧
            results = BitVec.ofNat 8 (min count.toNat s.events.records.length) ::
              (s.events.records.take count.toNat).flatMap recordBytes ∧
            latch = false) ∧
        (count.toNat = 0 ∨ 8 < count.toNat →
          status = .range ∧ results = [] ∧ latch = s.agent.noticeLatch)) ∧
  ∀ (s : State) (r : Request) (p : Port), s.hasAtHead r p 8#8 →
      ∃ t status results, exec .ackEvents s = .next t ∧
        replied s s.counters s.agent.noticeLatch t r p status results ∧
        onlyChanges [.events, .rxPool, .egress, .agent, .counters] s t ∧ t.events.nextSeq = s.events.nextSeq ∧
        (r.args = [] → status = .malformed ∧ results = [] ∧ t.events = s.events) ∧
        ∀ count, r.args.head? = some count →
        (count.toNat ≤ 32 → count.toNat ≤ s.events.records.length →
          status = .ok ∧ results = [BitVec.ofNat 8 (s.events.records.length - count.toNat)] ∧
            t.events.records = s.events.records.drop count.toNat) ∧
        (32 < count.toNat ∨ s.events.records.length < count.toNat →
          status = .range ∧ results = [] ∧ t.events = s.events)

/-- FLUSH LEVEL removes every frame of one Level Queue from head to tail, returns each frame's cells and descriptor to the
Transmit Pool, counts them as flushed and answers their number; open, latched and in-flight frames and the other queues are
untouched, and no selection follows; without its argument it is MALFORMED, and any other level is RANGE. The flush stands when
the reserve cannot grant its reply (R35, R158, R159, R166). -/
def Obligations.FlushEmptiesOneLevelQueue : Prop :=
  ∀ (s : State) (r : Request) (p : Port), s.hasAtHead r p 9#8 →
    (∀ l : Level, r.args.head?.map BitVec.toNat = some l.val →
      ∃ t, exec .flushLevel s = .next t ∧
        replied s (s.counters.plusLevel l .flushed (s.sched.queues.get l).length) s.agent.noticeLatch t r p .ok
          (halfBytes (BitVec.ofNat 16 (s.sched.queues.get l).length)) ∧
        t.sched = { s.sched with queues := s.sched.queues.set l [] } ∧ t.levelQueueCells l = 0 ∧
        t.txPool.freeDescs = s.txPool.freeDescs ++ (s.sched.queues.get l).map (·.number) ∧
        t.txPool.freeCells =
          s.txPool.freeCells ++ (s.sched.queues.get l).flatMap (fun f => f.cells.map (·.number)) ∧
        onlyChanges [.sched, .txPool, .rxPool, .egress, .agent, .counters] s t) ∧
    ∀ status, (r.args = [] ∧ status = .malformed) ∨ (∃ code, r.args.head? = some code ∧ 4 ≤ code.toNat ∧ status = .range) →
      ∃ t, exec .flushLevel s = .next t ∧ replied s s.counters s.agent.noticeLatch t r p status [] ∧
        onlyChanges [.rxPool, .egress, .agent, .counters] s t

/-- LINK CONTROL and RESTART are answered OK and deferred until the reply has left: the mode is DEFERRING with the command
and the placed reply, at a port or on the trunk, and nothing else is applied; a reply admitted for the trunk is a selection
trigger. At the completion of that reply, at its port or as the END or WHOLE of its frame on the trunk, the command takes effect
and the mode is READY; a latched segment starts after that (log 20). A command that awaits a trunk reply takes effect at every DOWN event that no command brings: loss of
signal, silence, the 16th error, a HELLO with heard-you 0; it acts in the state that the DOWN event leaves (log 21), and a start
delimiter that made the error begins the next segment after it (log 37). One whose trunk reply cannot be sent takes effect at its
execution: with the link not UP or its generation changed, or with the Transmit Pool short, where the failed claim is recorded
(log 19), with its NOTICE, before the command acts (log 38). A LINK CONTROL or RESTART whose argument is outside its codes is
refused RANGE and nothing is deferred, and one without its argument, or an unknown command, is MALFORMED; the idle step executes
these, which no row of the table names (log 2; R14, R17, R72, R79, R106, R158, R159, R160, R167, R168, R169, R176). -/
def Obligations.CommandsWaitForTheirReply : Prop :=
  (∀ (s : State) (r : Request) (p : Port) (status : Status), s.pending = [] → s.hasAtHead r p r.command →
    r.refusedUnnamed status →
      ∃ t, step s = .next t ∧ replied s s.counters s.agent.noticeLatch t r p status [] ∧
        onlyChanges [.rxPool, .egress, .agent, .counters] s t) ∧
  (∀ (s : State) (r : Request) (p : Port) (i : Instr) (c : DeferredCommand), s.hasAtHead r p r.command →
    s.reserveGrants 5 → namesRequest i r → deferredBy i = some c →
      ∃ t n, exec i s = .next t ∧ answered s s.counters t r p n .ok [] ∧
        t.agent = { s.agent with requests := s.agent.requests.tail, mode := .deferring c (.station p n) } ∧
        onlyChanges [.rxPool, .egress, .agent, .counters] s t) ∧
  (∀ (s : State) (r : Request) (g : Half) (i : Instr) (c : DeferredCommand), s.hasTrunkRequest r g →
    s.config.active.part.remoteMgmt = true → namesRequest i r → deferredBy i = some c →
      (∀ n, s.trunkReplyReady g n 0 →
        ∃ t u, exec i s = .next t ∧ trunkAnswered s u r n .ok [] ∧
          t = { u with agent := { u.agent with mode := .deferring c (.trunk n) } }) ∧
      (s.link.state ≠ .up ∨ s.link.generation ≠ g → ∃ t, exec i s = .next t ∧ commandTaken s.replyLost t c) ∧
      (s.link.state = .up → s.link.generation = g → s.poolShort 5 →
        ∃ t u, exec i s = .next t ∧ agentClaimRefused s u 5 ∧ mgmtCounted s u .repliesDropped 1 ∧
          u.agent = { s.withoutHead.agent with noticeLatch := u.agent.noticeLatch } ∧
          onlyChanges [.rxPool, .egress, .agent, .counters, .txPool, .events, .freeCount] s u ∧ commandTaken u t c)) ∧
  (∀ (s : State) (p : Port) (n : Nat) (rest : List Nat) (c : DeferredCommand), s.running →
    (s.egress.get p).state = .sending → (s.egress.get p).queue = n :: rest →
    s.agent.mode = .deferring c (.station p n) →
      ∃ t u, exec (.egressCompletion p) s = .next t ∧ portCounted s u p .framesOut ∧ (u.egress.get p).queue = rest ∧
        u.link.state = s.link.state ∧ u.link.held = s.link.held ∧ u.link.signal = s.link.signal ∧
        onlyChanges [.counters, .egress, .rxPool, .link, .sched, .trunkTx] s u ∧ commandTaken u t c) ∧
  (∀ (s : State) (d : DataSegment) (c : DeferredCommand), s.running → s.trunkTx.inFlight = some (.data d) →
    d.kind = .end_ ∨ d.kind = .whole → d.frame.origin = .trunkReply →
    s.agent.mode = .deferring c (.trunk d.frame.number) →
      ∃ t u v, exec .transmissionCompletion s = .next t ∧ trunkCounted s u .segmentsSent ∧
        levelCounted s u d.level .framesSent 1 ∧ u.trunkTx = { s.trunkTx with inFlight := none } ∧
        u.link =
          (if s.link.state = .up then { s.link with keepaliveDeadline := some (s.now + 250#32) } else s.link) ∧
        onlyChanges [.trunkTx, .link, .counters, .txPool] s u ∧ commandTaken u v c ∧ (v.trunkTx.latch = none → t = v) ∧
        ∀ latched, v.trunkTx.latch = some latched →
          ∃ w, w.trunkTx.inFlight = some latched ∧ w.trunkTx.latch = none ∧ onlyChanges [.trunkTx] v w ∧
            selectionFollows w t) ∧
  ∀ (s : State) (i : Instr) (cause : LinkCause) (k : LinkController) (n : Nat) (c : DeferredCommand), s.running →
    s.goesDownBy i cause k → s.agent.mode = .deferring c (.trunk n) →
      ∃ t u v, exec i s = .next t ∧ k.wentDown s.now cause u.link ∧ settledDown s u cause ∧ keptThroughDown s u ∧
        u.reception = (if i = .silenceDeadlineExpiry then s.reception else none) ∧
        (cause = .errorRate → trunkCounted s u .crcMalformed) ∧
        (cause = .peerRestart → trunkCounted s u .segmentsReceived) ∧ commandTaken u v c ∧
        t =
          if i = .startDelimiterArrival ∨ i = .segmentReceptionEnd .startDelimiter then
            { v with reception := some { bytes := [], overlength := false } }
          else v

/-- LINK CONTROL whose reply the reserve cannot grant acts at its execution, the reply counted as dropped: DROP and HOLD
take an UP or HELLO link down with cause ADMIN, HOLD with held yes; on a DOWN link DROP sets a running hold-off afresh, HOLD
holds and removes it, RELEASE frees a held link and starts it when the signal is present; nothing else changes (R72, R79, R159,
R168). -/
def Obligations.LinkControlActsOnTheLink : Prop :=
  ∀ (s : State) (r : Request) (p : Port), s.hasAtHead r p 10#8 → ¬s.reserveGrants 5 →
    (r.args.head? = some 1#8 → ∃ t, exec .linkControlDrop s = .next t ∧ linkControlled s.replyLost t .drop) ∧
      (r.args.head? = some 2#8 → ∃ t, exec .linkControlHold s = .next t ∧ linkControlled s.replyLost t .hold) ∧
      (r.args.head? = some 3#8 → ∃ t, exec .linkControlRelease s = .next t ∧ linkControlled s.replyLost t .release)

/-- RESTART whose reply the reserve cannot grant acts at its execution. TRAFFIC clears the traffic side, keeps
configuration, link generation, requests and the Time Base, counts a link-down RESTART when the link was HELLO or UP, answers
the pending peers, and records RESTART with code 4 and the restart-cause record. FULL leaves what a cold start leaves, with
cause FULL_RESTART. Both cut off a segment in flight, whose end delimiter goes out, and frames in transmission at ports (R12,
R41, R63, R90, R120, R132, R154, R176, R177, R179, R187, R188). -/
def Obligations.RestartsClearTheirBlocks : Prop :=
  ∀ (s : State) (r : Request) (p : Port), s.hasAtHead r p 11#8 → ¬s.reserveGrants 5 →
    (r.args.head? = some 1#8 → ∃ t, exec .trafficRestart s = .next t ∧ trafficRestarted s.replyLost t) ∧
      (r.args.head? = some 2#8 → ∃ t, exec .fullRestart s = .next t ∧ fullyRestarted s.replyLost t)

/-- REQUEST_PEER_FORWARDING: with the link not UP the requester is answered LINK_DOWN, with 4 entries pending PEER_BUSY;
otherwise a request the Transmit Pool grants is rebuilt as a request-local under the chosen local tag, admitted to the
management level's queue, a selection trigger, and entered in the Pending Peer Table with its deadline. The tag is the next
local tag, or the first value after it, modulo 256, that no entry holds. A request for which the pool has no descriptor or too few
cells is answered NO_BUFFER, the failed claim reported with the resource short, with both short a free value (log 19; R11, R14,
R17, R106, R111, R158, R159, R171). With notices on, the NO_BUFFER reply comes after that record's NOTICE (log 32), and is stated
for a record that sends none. -/
def Obligations.PeerRequestIsForwarded : Prop :=
  ∀ (s : State) (r : Request) (p : Port), s.running → s.agent.mode = .ready → s.agent.requests.head? = some r →
    r.source = .station p → r.type = 1#8 →
    (s.link.state ≠ .up →
      ∃ t, exec .requestPeerForwarding s = .next t ∧ replied s s.counters s.agent.noticeLatch t r p .linkDown [] ∧
        onlyChanges [.rxPool, .egress, .agent, .counters] s t) ∧
    (s.link.state = .up → 4 ≤ s.agent.peers.length →
      ∃ t, exec .requestPeerForwarding s = .next t ∧ replied s s.counters s.agent.noticeLatch t r p .peerBusy [] ∧
        onlyChanges [.rxPool, .egress, .agent, .counters] s t) ∧
    (s.link.state = .up → s.agent.peers.length < 4 → 6 ≤ r.payload.length → s.poolShort r.payload.length →
      ∃ t, exec .requestPeerForwarding s = .next t ∧ agentClaimRefused s t r.payload.length ∧
        t.agent = { s.withoutHead.agent with noticeLatch := t.agent.noticeLatch } ∧
        (s.noNotices ∨ s.txPool.exhaustionReported = true →
          replied s s.counters s.agent.noticeLatch t r p .noBuffer []) ∧
        onlyChanges [.rxPool, .egress, .agent, .counters, .txPool, .events, .freeCount] s t) ∧
    ∀ (n : Nat) (rest : List Nat) (relayed : Byte → List Byte), s.link.state = .up → s.agent.peers.length < 4 →
      s.txPool.freeDescs = n :: rest → 6 ≤ r.payload.length → cellsFor r.payload.length ≤ s.txPool.freeCells.length →
      relayed = (fun tag => [0#8, tag, 0#8] ++ r.payload.drop 3) →
        ∃ t tag k, exec .requestPeerForwarding s = .next t ∧ tag = s.agent.nextLocalTag + BitVec.ofNat 8 k ∧ k ≤ 3 ∧
          (∀ e ∈ s.agent.peers, e.localTag ≠ tag) ∧
          (∀ j, j < k → ∃ e ∈ s.agent.peers, e.localTag = s.agent.nextLocalTag + BitVec.ofNat 8 j) ∧
          t.agent =
            { s.agent with
              requests := s.agent.requests.tail
              nextLocalTag := tag + 1#8
              peers :=
                s.agent.peers ++
                  [{ localTag := tag, port := p, originalTag := r.tag, replyStream := r.replyStream, command := r.command
                     deadline := s.now + BitVec.ofNat 32 (1000 * s.config.active.part.peerTimeout) }] } ∧
          t.txPool.freeDescs = rest ∧ t.txPool.freeCells = s.txPool.freeCells.drop (cellsFor r.payload.length) ∧
          levelCounted s t s.config.active.part.mgmtLevel .framesAdmitted 1 ∧
          onlyChanges [.agent, .txPool, .sched, .trunkTx, .link, .counters] s t ∧
          ∃ u : State, selectionFollows u t ∧ u.agent = t.agent ∧ u.txPool = t.txPool ∧
            onlyChanges [.agent, .txPool, .sched, .counters] s u ∧
            u.sched =
              { s.sched with
                queues :=
                  s.sched.queues.set s.config.active.part.mgmtLevel
                    (s.sched.queues.get s.config.active.part.mgmtLevel ++
                      [{ number := n, level := s.config.active.part.mgmtLevel, atomic := false
                         trunkStream := 65535#16, frameLength := r.payload.length
                         cells := fillCells (s.txPool.freeCells.take (cellsFor r.payload.length)) (relayed tag)
                         origin := .forwardedRequest, admissionTime := s.now, ingressPort := none }]) }

/-- A request from the trunk is answered over the trunk, as a frame of the management level: NOT_PERMITTED, and nothing
else, when remote management is not permitted; INVALID for a request-peer; the refusal of a request that no row of the table
names, at the idle step (log 2); STATUS with its block; and every other command from READ ENTRIES to FLUSH LEVEL with the effect,
status and results of the same request from a station port. The reply's admission is a selection trigger. When the link is not UP or its generation has changed, or the
Transmit Pool refuses the claim, which is reported (log 19), the reply is dropped and counted, and the effect stands (R14, R17, R106, R158, R160). After a COMMIT
the reply takes the management level of the new bank, which the selection reads too (the model's choice, log 33). -/
def Obligations.TrunkRequestsAreAnsweredOverTheTrunk : Prop :=
  (∀ (s : State) (r : Request) (g : Half) (i : Instr) (status : Status) (results : List Byte)
      (outcome : Host.Outcome State Fault Refusal), s.hasTrunkRequest r g →
    outcome = exec i s ∧ (r.type = 1#8 ∧ i = .requestPeerForwarding ∨ namesRequest i r) ∨
      outcome = step s ∧ s.pending = [] →
    (s.config.active.part.remoteMgmt = false ∧ status = .notPermitted ∧ results = []) ∨
      (s.config.active.part.remoteMgmt = true ∧ r.type = 1#8 ∧ status = .invalid ∧ results = []) ∨
      (s.config.active.part.remoteMgmt = true ∧ r.refusedUnnamed status ∧ results = []) ∨
      (s.config.active.part.remoteMgmt = true ∧ namesRequest .status r ∧ status = .ok ∧ results = s.statusBlock) →
      (∀ n, s.trunkReplyReady g n results.length → ∃ t, outcome = .next t ∧ trunkAnswered s t r n status results) ∧
      (s.link.state ≠ .up ∨ s.link.generation ≠ g →
        ∃ t, outcome = .next t ∧ t.agent = s.withoutHead.agent ∧ t.counters = s.counters.plusMgmt .repliesDropped ∧
          onlyChanges [.agent, .counters] s t) ∧
      (s.link.state = .up → s.link.generation = g → s.poolShort (5 + results.length) →
        ∃ t, outcome = .next t ∧ agentClaimRefused s t (5 + results.length) ∧ mgmtCounted s t .repliesDropped 1 ∧
          t.agent = { s.withoutHead.agent with noticeLatch := t.agent.noticeLatch } ∧
          onlyChanges [.rxPool, .egress, .agent, .counters, .txPool, .events, .freeCount] s t)) ∧
  ∀ (s : State) (r : Request) (g : Half) (i : Instr) (p : Port) (twin : Request), s.hasTrunkRequest r g →
    s.config.active.part.remoteMgmt = true → namesRequest i r → deferredBy i = none →
    twin = { r with source := .station p } →
      ∃ (u : State) (status : Status) (results : List Byte),
        onlyChanges [.config, .counters, .agent, .events, .sched, .txPool] s u ∧
          u.agent = { s.agent with noticeLatch := u.agent.noticeLatch } ∧
          (∀ a, a = { s with agent := { s.agent with requests := twin :: s.agent.requests.tail } } →
            ∃ t, exec i a = .next t ∧ replied a u.counters u.agent.noticeLatch t twin p status results ∧
              t.config = u.config ∧ t.events = u.events ∧ t.sched = u.sched ∧ t.txPool = u.txPool) ∧
          (∀ n, u.trunkReplyReady g n results.length →
            ∃ t, exec i s = .next t ∧ trunkAnswered u t r n status results) ∧
          (s.link.state ≠ .up ∨ s.link.generation ≠ g →
            ∃ t, exec i s = .next t ∧
              t =
                { u with
                  agent := { u.agent with requests := s.agent.requests.tail }
                  counters := u.counters.plusMgmt .repliesDropped }) ∧
          (u.link.state = .up → u.link.generation = g → u.poolShort (5 + results.length) →
            ∃ t, exec i s = .next t ∧ agentClaimRefused u t (5 + results.length) ∧ mgmtCounted u t .repliesDropped 1 ∧
              t.agent = { u.agent with requests := s.agent.requests.tail, noticeLatch := t.agent.noticeLatch } ∧
              onlyChanges [.rxPool, .egress, .agent, .counters, .txPool, .events, .freeCount] u t)

/-! ### Invariants that every step keeps -/

/-- Every step keeps the Event Queue: at most 31 ordinary records and one loss record, consecutive sequence numbers that
end just before the event sequence counter (R178, R180, R181). -/
def Obligations.EveryStepKeepsTheEventQueue : Prop :=
  ∀ s t : State, s.events.kept → step s = .next t → t.events.kept

/-- Every step keeps the Configuration Store: both banks with every field in range and no key twice, Active allotments of
at most 1008 cells, and a generation that is never 65535 (R136 to R142, R145, R147). -/
def Obligations.EveryStepKeepsTheConfiguration : Prop :=
  ∀ s t : State, s.config.kept → step s = .next t → t.config.kept

/-- Every step keeps the link's consistency: whenever it is not UP both open-frame stacks and the Pending Peer Table are
empty and no data segment is latched or in flight; credit, limits and deadlines exist in the link states that have them; a
hold-off runs only on a DOWN link with signal that is not held (R28, R40, R62, R69, R71, R79, R80, R88, R170). -/
def Obligations.EveryStepKeepsTheLinkConsistent : Prop :=
  ∀ s t : State, s.quietUnlessUp ∧ s.link.recordsFit ∧ s.lineFits → step s = .next t →
    t.quietUnlessUp ∧ t.link.recordsFit ∧ t.lineFits

/-- Every step keeps the nesting of both open-frame stacks: levels strictly rise from bottom to top, no suspended frame is
atomic, and every queue holds frames of its level (R10, R13, R16, R30, R43). -/
def Obligations.EveryStepKeepsTheNesting : Prop := ∀ s t : State, s.stacksKept → step s = .next t → t.stacksKept

/-- Every step keeps the Management Agent's bounds: at most 4 requests of 6 to 256 bytes, at most 4 pending peer requests,
no two with one local tag (R155, R157, R170). -/
def Obligations.EveryStepKeepsTheAgentsBounds : Prop := ∀ s t : State, s.agent.kept → step s = .next t → t.agent.kept

/-- Every step keeps the Receive Pool whole: every cell and descriptor of the level part and of the management reserve is
free or in use exactly once, and neither part lends to the other (R110, R112). -/
def Obligations.EveryStepKeepsTheReceivePool : Prop := ∀ s t : State, s.rxPool.kept → step s = .next t → t.rxPool.kept

/-- Every step keeps the Transmit Pool whole: every TX descriptor and every TXP cell is free or in exactly one place, a
frame in reception, a Level Queue, the TX Open-Frame Stack or the Trunk Transmitter (R15, R110). -/
def Obligations.EveryStepKeepsTheTransmitPool : Prop :=
  ∀ s t : State, s.txPoolKept → step s = .next t → t.txPoolKept

/-- The machine right after reset satisfies every invariant that the steps keep. -/
def Obligations.ResetMeetsTheInvariants : Prop :=
  State.reset.events.kept ∧ State.reset.config.kept ∧ State.reset.quietUnlessUp ∧ State.reset.link.recordsFit ∧
    State.reset.lineFits ∧ State.reset.stacksKept ∧ State.reset.agent.kept ∧ State.reset.rxPool.kept ∧
    State.reset.txPoolKept

/-! ### Encodings -/

/-- What the Trunk Transmitter sends passes the check on arrival and is read back whole: every data segment of a frame of 1
to 1536 bytes, every CONTROL and every HELLO. And a segment passes the check exactly when it passes every check of R9 (kind and
unused bits, P in range, number of bytes, CRC, frame length, heard-you), with its fields read from their places; level, tag and
sequence number of a control segment are not read (R1, R2, R3, R6, R9, R190). -/
def Obligations.SentSegmentsAreReadBack : Prop :=
  (∀ (bytes : List Byte) (g : GoodSegment), checkSegment bytes = some g ↔ g.saidBy bytes) ∧
  (∀ d : DataSegment, 1 ≤ d.frame.frameLength → d.frame.frameLength ≤ 1536 →
    (chainBytes d.frame.cells).length = d.frame.frameLength → d.index < segmentCount d.frame.frameLength →
    d.kind = segmentKind d.frame.frameLength d.index →
      checkSegment (Segment.data d).bytes =
        some
          (.data
            { kind := d.kind, level := d.level, tag := d.tag, seq := d.seq
              stream := if d.kind.opens then d.frame.trunkStream else 0#16
              length := if d.kind.opens then d.frame.frameLength else 0
              payload := ((chainBytes d.frame.cells).drop (64 * d.index)).take 64 })) ∧
  (∀ limits, checkSegment (Segment.control limits).bytes = some (.control limits)) ∧
  ∀ heardYou limits, checkSegment (Segment.hello heardYou limits).bytes = some (.hello heardYou limits)

/-- The CRC of any bytes followed by their own CRC is 0, and that of the nine ASCII bytes 123456789 is 0x29B1 (R189). -/
def Obligations.CrcOverItsOwnBytesIsZero : Prop :=
  (∀ bytes : List Byte, crc16 (bytes ++ halfBytes (crc16 bytes)) = 0#16) ∧
    crc16 [0x31#8, 0x32#8, 0x33#8, 0x34#8, 0x35#8, 0x36#8, 0x37#8, 0x38#8, 0x39#8] = 0x29B1#16
end

