-- ==== Sys2Proof/Laws/State.lean ====
section
/-! SUPPORT. What each block update does to each field of the state: one lemma per field per update, true by rfl. -/

namespace Sys2Proof.Machine.State

variable (s : State)

section mapPins
variable (f : Pins → Pins)
@[simp] theorem mapPins_pins : (s.mapPins f).pins = f s.pins := rfl
@[simp] theorem mapPins_sprs : (s.mapPins f).sprs = s.sprs := rfl
@[simp] theorem mapPins_txPool : (s.mapPins f).txPool = s.txPool := rfl
@[simp] theorem mapPins_sched : (s.mapPins f).sched = s.sched := rfl
@[simp] theorem mapPins_trunkTx : (s.mapPins f).trunkTx = s.trunkTx := rfl
@[simp] theorem mapPins_reception : (s.mapPins f).reception = s.reception := rfl
@[simp] theorem mapPins_link : (s.mapPins f).link = s.link := rfl
@[simp] theorem mapPins_reasm : (s.mapPins f).reasm = s.reasm := rfl
@[simp] theorem mapPins_rxPool : (s.mapPins f).rxPool = s.rxPool := rfl
@[simp] theorem mapPins_egress : (s.mapPins f).egress = s.egress := rfl
@[simp] theorem mapPins_config : (s.mapPins f).config = s.config := rfl
@[simp] theorem mapPins_agent : (s.mapPins f).agent = s.agent := rfl
@[simp] theorem mapPins_events : (s.mapPins f).events = s.events := rfl
@[simp] theorem mapPins_counters : (s.mapPins f).counters = s.counters := rfl
@[simp] theorem mapPins_time : (s.mapPins f).time = s.time := rfl
@[simp] theorem mapPins_freeCount : (s.mapPins f).freeCount = s.freeCount := rfl
@[simp] theorem mapPins_pending : (s.mapPins f).pending = s.pending := rfl
end mapPins

section mapSprs
variable (f : Four Spr → Four Spr)
@[simp] theorem mapSprs_pins : (s.mapSprs f).pins = s.pins := rfl
@[simp] theorem mapSprs_sprs : (s.mapSprs f).sprs = f s.sprs := rfl
@[simp] theorem mapSprs_txPool : (s.mapSprs f).txPool = s.txPool := rfl
@[simp] theorem mapSprs_sched : (s.mapSprs f).sched = s.sched := rfl
@[simp] theorem mapSprs_trunkTx : (s.mapSprs f).trunkTx = s.trunkTx := rfl
@[simp] theorem mapSprs_reception : (s.mapSprs f).reception = s.reception := rfl
@[simp] theorem mapSprs_link : (s.mapSprs f).link = s.link := rfl
@[simp] theorem mapSprs_reasm : (s.mapSprs f).reasm = s.reasm := rfl
@[simp] theorem mapSprs_rxPool : (s.mapSprs f).rxPool = s.rxPool := rfl
@[simp] theorem mapSprs_egress : (s.mapSprs f).egress = s.egress := rfl
@[simp] theorem mapSprs_config : (s.mapSprs f).config = s.config := rfl
@[simp] theorem mapSprs_agent : (s.mapSprs f).agent = s.agent := rfl
@[simp] theorem mapSprs_events : (s.mapSprs f).events = s.events := rfl
@[simp] theorem mapSprs_counters : (s.mapSprs f).counters = s.counters := rfl
@[simp] theorem mapSprs_time : (s.mapSprs f).time = s.time := rfl
@[simp] theorem mapSprs_freeCount : (s.mapSprs f).freeCount = s.freeCount := rfl
@[simp] theorem mapSprs_pending : (s.mapSprs f).pending = s.pending := rfl
end mapSprs

section mapTxPool
variable (f : TxPool → TxPool)
@[simp] theorem mapTxPool_pins : (s.mapTxPool f).pins = s.pins := rfl
@[simp] theorem mapTxPool_sprs : (s.mapTxPool f).sprs = s.sprs := rfl
@[simp] theorem mapTxPool_txPool : (s.mapTxPool f).txPool = f s.txPool := rfl
@[simp] theorem mapTxPool_sched : (s.mapTxPool f).sched = s.sched := rfl
@[simp] theorem mapTxPool_trunkTx : (s.mapTxPool f).trunkTx = s.trunkTx := rfl
@[simp] theorem mapTxPool_reception : (s.mapTxPool f).reception = s.reception := rfl
@[simp] theorem mapTxPool_link : (s.mapTxPool f).link = s.link := rfl
@[simp] theorem mapTxPool_reasm : (s.mapTxPool f).reasm = s.reasm := rfl
@[simp] theorem mapTxPool_rxPool : (s.mapTxPool f).rxPool = s.rxPool := rfl
@[simp] theorem mapTxPool_egress : (s.mapTxPool f).egress = s.egress := rfl
@[simp] theorem mapTxPool_config : (s.mapTxPool f).config = s.config := rfl
@[simp] theorem mapTxPool_agent : (s.mapTxPool f).agent = s.agent := rfl
@[simp] theorem mapTxPool_events : (s.mapTxPool f).events = s.events := rfl
@[simp] theorem mapTxPool_counters : (s.mapTxPool f).counters = s.counters := rfl
@[simp] theorem mapTxPool_time : (s.mapTxPool f).time = s.time := rfl
@[simp] theorem mapTxPool_freeCount : (s.mapTxPool f).freeCount = s.freeCount := rfl
@[simp] theorem mapTxPool_pending : (s.mapTxPool f).pending = s.pending := rfl
end mapTxPool

section mapSched
variable (f : Scheduler → Scheduler)
@[simp] theorem mapSched_pins : (s.mapSched f).pins = s.pins := rfl
@[simp] theorem mapSched_sprs : (s.mapSched f).sprs = s.sprs := rfl
@[simp] theorem mapSched_txPool : (s.mapSched f).txPool = s.txPool := rfl
@[simp] theorem mapSched_sched : (s.mapSched f).sched = f s.sched := rfl
@[simp] theorem mapSched_trunkTx : (s.mapSched f).trunkTx = s.trunkTx := rfl
@[simp] theorem mapSched_reception : (s.mapSched f).reception = s.reception := rfl
@[simp] theorem mapSched_link : (s.mapSched f).link = s.link := rfl
@[simp] theorem mapSched_reasm : (s.mapSched f).reasm = s.reasm := rfl
@[simp] theorem mapSched_rxPool : (s.mapSched f).rxPool = s.rxPool := rfl
@[simp] theorem mapSched_egress : (s.mapSched f).egress = s.egress := rfl
@[simp] theorem mapSched_config : (s.mapSched f).config = s.config := rfl
@[simp] theorem mapSched_agent : (s.mapSched f).agent = s.agent := rfl
@[simp] theorem mapSched_events : (s.mapSched f).events = s.events := rfl
@[simp] theorem mapSched_counters : (s.mapSched f).counters = s.counters := rfl
@[simp] theorem mapSched_time : (s.mapSched f).time = s.time := rfl
@[simp] theorem mapSched_freeCount : (s.mapSched f).freeCount = s.freeCount := rfl
@[simp] theorem mapSched_pending : (s.mapSched f).pending = s.pending := rfl
end mapSched

section mapTrunkTx
variable (f : TrunkTx → TrunkTx)
@[simp] theorem mapTrunkTx_pins : (s.mapTrunkTx f).pins = s.pins := rfl
@[simp] theorem mapTrunkTx_sprs : (s.mapTrunkTx f).sprs = s.sprs := rfl
@[simp] theorem mapTrunkTx_txPool : (s.mapTrunkTx f).txPool = s.txPool := rfl
@[simp] theorem mapTrunkTx_sched : (s.mapTrunkTx f).sched = s.sched := rfl
@[simp] theorem mapTrunkTx_trunkTx : (s.mapTrunkTx f).trunkTx = f s.trunkTx := rfl
@[simp] theorem mapTrunkTx_reception : (s.mapTrunkTx f).reception = s.reception := rfl
@[simp] theorem mapTrunkTx_link : (s.mapTrunkTx f).link = s.link := rfl
@[simp] theorem mapTrunkTx_reasm : (s.mapTrunkTx f).reasm = s.reasm := rfl
@[simp] theorem mapTrunkTx_rxPool : (s.mapTrunkTx f).rxPool = s.rxPool := rfl
@[simp] theorem mapTrunkTx_egress : (s.mapTrunkTx f).egress = s.egress := rfl
@[simp] theorem mapTrunkTx_config : (s.mapTrunkTx f).config = s.config := rfl
@[simp] theorem mapTrunkTx_agent : (s.mapTrunkTx f).agent = s.agent := rfl
@[simp] theorem mapTrunkTx_events : (s.mapTrunkTx f).events = s.events := rfl
@[simp] theorem mapTrunkTx_counters : (s.mapTrunkTx f).counters = s.counters := rfl
@[simp] theorem mapTrunkTx_time : (s.mapTrunkTx f).time = s.time := rfl
@[simp] theorem mapTrunkTx_freeCount : (s.mapTrunkTx f).freeCount = s.freeCount := rfl
@[simp] theorem mapTrunkTx_pending : (s.mapTrunkTx f).pending = s.pending := rfl
end mapTrunkTx

section mapReception
variable (f : Option Reception → Option Reception)
@[simp] theorem mapReception_pins : (s.mapReception f).pins = s.pins := rfl
@[simp] theorem mapReception_sprs : (s.mapReception f).sprs = s.sprs := rfl
@[simp] theorem mapReception_txPool : (s.mapReception f).txPool = s.txPool := rfl
@[simp] theorem mapReception_sched : (s.mapReception f).sched = s.sched := rfl
@[simp] theorem mapReception_trunkTx : (s.mapReception f).trunkTx = s.trunkTx := rfl
@[simp] theorem mapReception_reception : (s.mapReception f).reception = f s.reception := rfl
@[simp] theorem mapReception_link : (s.mapReception f).link = s.link := rfl
@[simp] theorem mapReception_reasm : (s.mapReception f).reasm = s.reasm := rfl
@[simp] theorem mapReception_rxPool : (s.mapReception f).rxPool = s.rxPool := rfl
@[simp] theorem mapReception_egress : (s.mapReception f).egress = s.egress := rfl
@[simp] theorem mapReception_config : (s.mapReception f).config = s.config := rfl
@[simp] theorem mapReception_agent : (s.mapReception f).agent = s.agent := rfl
@[simp] theorem mapReception_events : (s.mapReception f).events = s.events := rfl
@[simp] theorem mapReception_counters : (s.mapReception f).counters = s.counters := rfl
@[simp] theorem mapReception_time : (s.mapReception f).time = s.time := rfl
@[simp] theorem mapReception_freeCount : (s.mapReception f).freeCount = s.freeCount := rfl
@[simp] theorem mapReception_pending : (s.mapReception f).pending = s.pending := rfl
end mapReception

section mapLink
variable (f : LinkController → LinkController)
@[simp] theorem mapLink_pins : (s.mapLink f).pins = s.pins := rfl
@[simp] theorem mapLink_sprs : (s.mapLink f).sprs = s.sprs := rfl
@[simp] theorem mapLink_txPool : (s.mapLink f).txPool = s.txPool := rfl
@[simp] theorem mapLink_sched : (s.mapLink f).sched = s.sched := rfl
@[simp] theorem mapLink_trunkTx : (s.mapLink f).trunkTx = s.trunkTx := rfl
@[simp] theorem mapLink_reception : (s.mapLink f).reception = s.reception := rfl
@[simp] theorem mapLink_link : (s.mapLink f).link = f s.link := rfl
@[simp] theorem mapLink_reasm : (s.mapLink f).reasm = s.reasm := rfl
@[simp] theorem mapLink_rxPool : (s.mapLink f).rxPool = s.rxPool := rfl
@[simp] theorem mapLink_egress : (s.mapLink f).egress = s.egress := rfl
@[simp] theorem mapLink_config : (s.mapLink f).config = s.config := rfl
@[simp] theorem mapLink_agent : (s.mapLink f).agent = s.agent := rfl
@[simp] theorem mapLink_events : (s.mapLink f).events = s.events := rfl
@[simp] theorem mapLink_counters : (s.mapLink f).counters = s.counters := rfl
@[simp] theorem mapLink_time : (s.mapLink f).time = s.time := rfl
@[simp] theorem mapLink_freeCount : (s.mapLink f).freeCount = s.freeCount := rfl
@[simp] theorem mapLink_pending : (s.mapLink f).pending = s.pending := rfl
end mapLink

section mapReasm
variable (f : Reassembler → Reassembler)
@[simp] theorem mapReasm_pins : (s.mapReasm f).pins = s.pins := rfl
@[simp] theorem mapReasm_sprs : (s.mapReasm f).sprs = s.sprs := rfl
@[simp] theorem mapReasm_txPool : (s.mapReasm f).txPool = s.txPool := rfl
@[simp] theorem mapReasm_sched : (s.mapReasm f).sched = s.sched := rfl
@[simp] theorem mapReasm_trunkTx : (s.mapReasm f).trunkTx = s.trunkTx := rfl
@[simp] theorem mapReasm_reception : (s.mapReasm f).reception = s.reception := rfl
@[simp] theorem mapReasm_link : (s.mapReasm f).link = s.link := rfl
@[simp] theorem mapReasm_reasm : (s.mapReasm f).reasm = f s.reasm := rfl
@[simp] theorem mapReasm_rxPool : (s.mapReasm f).rxPool = s.rxPool := rfl
@[simp] theorem mapReasm_egress : (s.mapReasm f).egress = s.egress := rfl
@[simp] theorem mapReasm_config : (s.mapReasm f).config = s.config := rfl
@[simp] theorem mapReasm_agent : (s.mapReasm f).agent = s.agent := rfl
@[simp] theorem mapReasm_events : (s.mapReasm f).events = s.events := rfl
@[simp] theorem mapReasm_counters : (s.mapReasm f).counters = s.counters := rfl
@[simp] theorem mapReasm_time : (s.mapReasm f).time = s.time := rfl
@[simp] theorem mapReasm_freeCount : (s.mapReasm f).freeCount = s.freeCount := rfl
@[simp] theorem mapReasm_pending : (s.mapReasm f).pending = s.pending := rfl
end mapReasm

section mapRxPool
variable (f : RxPool → RxPool)
@[simp] theorem mapRxPool_pins : (s.mapRxPool f).pins = s.pins := rfl
@[simp] theorem mapRxPool_sprs : (s.mapRxPool f).sprs = s.sprs := rfl
@[simp] theorem mapRxPool_txPool : (s.mapRxPool f).txPool = s.txPool := rfl
@[simp] theorem mapRxPool_sched : (s.mapRxPool f).sched = s.sched := rfl
@[simp] theorem mapRxPool_trunkTx : (s.mapRxPool f).trunkTx = s.trunkTx := rfl
@[simp] theorem mapRxPool_reception : (s.mapRxPool f).reception = s.reception := rfl
@[simp] theorem mapRxPool_link : (s.mapRxPool f).link = s.link := rfl
@[simp] theorem mapRxPool_reasm : (s.mapRxPool f).reasm = s.reasm := rfl
@[simp] theorem mapRxPool_rxPool : (s.mapRxPool f).rxPool = f s.rxPool := rfl
@[simp] theorem mapRxPool_egress : (s.mapRxPool f).egress = s.egress := rfl
@[simp] theorem mapRxPool_config : (s.mapRxPool f).config = s.config := rfl
@[simp] theorem mapRxPool_agent : (s.mapRxPool f).agent = s.agent := rfl
@[simp] theorem mapRxPool_events : (s.mapRxPool f).events = s.events := rfl
@[simp] theorem mapRxPool_counters : (s.mapRxPool f).counters = s.counters := rfl
@[simp] theorem mapRxPool_time : (s.mapRxPool f).time = s.time := rfl
@[simp] theorem mapRxPool_freeCount : (s.mapRxPool f).freeCount = s.freeCount := rfl
@[simp] theorem mapRxPool_pending : (s.mapRxPool f).pending = s.pending := rfl
end mapRxPool

section mapEgress
variable (f : Four EgressPort → Four EgressPort)
@[simp] theorem mapEgress_pins : (s.mapEgress f).pins = s.pins := rfl
@[simp] theorem mapEgress_sprs : (s.mapEgress f).sprs = s.sprs := rfl
@[simp] theorem mapEgress_txPool : (s.mapEgress f).txPool = s.txPool := rfl
@[simp] theorem mapEgress_sched : (s.mapEgress f).sched = s.sched := rfl
@[simp] theorem mapEgress_trunkTx : (s.mapEgress f).trunkTx = s.trunkTx := rfl
@[simp] theorem mapEgress_reception : (s.mapEgress f).reception = s.reception := rfl
@[simp] theorem mapEgress_link : (s.mapEgress f).link = s.link := rfl
@[simp] theorem mapEgress_reasm : (s.mapEgress f).reasm = s.reasm := rfl
@[simp] theorem mapEgress_rxPool : (s.mapEgress f).rxPool = s.rxPool := rfl
@[simp] theorem mapEgress_egress : (s.mapEgress f).egress = f s.egress := rfl
@[simp] theorem mapEgress_config : (s.mapEgress f).config = s.config := rfl
@[simp] theorem mapEgress_agent : (s.mapEgress f).agent = s.agent := rfl
@[simp] theorem mapEgress_events : (s.mapEgress f).events = s.events := rfl
@[simp] theorem mapEgress_counters : (s.mapEgress f).counters = s.counters := rfl
@[simp] theorem mapEgress_time : (s.mapEgress f).time = s.time := rfl
@[simp] theorem mapEgress_freeCount : (s.mapEgress f).freeCount = s.freeCount := rfl
@[simp] theorem mapEgress_pending : (s.mapEgress f).pending = s.pending := rfl
end mapEgress

section mapConfig
variable (f : ConfigStore → ConfigStore)
@[simp] theorem mapConfig_pins : (s.mapConfig f).pins = s.pins := rfl
@[simp] theorem mapConfig_sprs : (s.mapConfig f).sprs = s.sprs := rfl
@[simp] theorem mapConfig_txPool : (s.mapConfig f).txPool = s.txPool := rfl
@[simp] theorem mapConfig_sched : (s.mapConfig f).sched = s.sched := rfl
@[simp] theorem mapConfig_trunkTx : (s.mapConfig f).trunkTx = s.trunkTx := rfl
@[simp] theorem mapConfig_reception : (s.mapConfig f).reception = s.reception := rfl
@[simp] theorem mapConfig_link : (s.mapConfig f).link = s.link := rfl
@[simp] theorem mapConfig_reasm : (s.mapConfig f).reasm = s.reasm := rfl
@[simp] theorem mapConfig_rxPool : (s.mapConfig f).rxPool = s.rxPool := rfl
@[simp] theorem mapConfig_egress : (s.mapConfig f).egress = s.egress := rfl
@[simp] theorem mapConfig_config : (s.mapConfig f).config = f s.config := rfl
@[simp] theorem mapConfig_agent : (s.mapConfig f).agent = s.agent := rfl
@[simp] theorem mapConfig_events : (s.mapConfig f).events = s.events := rfl
@[simp] theorem mapConfig_counters : (s.mapConfig f).counters = s.counters := rfl
@[simp] theorem mapConfig_time : (s.mapConfig f).time = s.time := rfl
@[simp] theorem mapConfig_freeCount : (s.mapConfig f).freeCount = s.freeCount := rfl
@[simp] theorem mapConfig_pending : (s.mapConfig f).pending = s.pending := rfl
end mapConfig

section mapAgent
variable (f : Agent → Agent)
@[simp] theorem mapAgent_pins : (s.mapAgent f).pins = s.pins := rfl
@[simp] theorem mapAgent_sprs : (s.mapAgent f).sprs = s.sprs := rfl
@[simp] theorem mapAgent_txPool : (s.mapAgent f).txPool = s.txPool := rfl
@[simp] theorem mapAgent_sched : (s.mapAgent f).sched = s.sched := rfl
@[simp] theorem mapAgent_trunkTx : (s.mapAgent f).trunkTx = s.trunkTx := rfl
@[simp] theorem mapAgent_reception : (s.mapAgent f).reception = s.reception := rfl
@[simp] theorem mapAgent_link : (s.mapAgent f).link = s.link := rfl
@[simp] theorem mapAgent_reasm : (s.mapAgent f).reasm = s.reasm := rfl
@[simp] theorem mapAgent_rxPool : (s.mapAgent f).rxPool = s.rxPool := rfl
@[simp] theorem mapAgent_egress : (s.mapAgent f).egress = s.egress := rfl
@[simp] theorem mapAgent_config : (s.mapAgent f).config = s.config := rfl
@[simp] theorem mapAgent_agent : (s.mapAgent f).agent = f s.agent := rfl
@[simp] theorem mapAgent_events : (s.mapAgent f).events = s.events := rfl
@[simp] theorem mapAgent_counters : (s.mapAgent f).counters = s.counters := rfl
@[simp] theorem mapAgent_time : (s.mapAgent f).time = s.time := rfl
@[simp] theorem mapAgent_freeCount : (s.mapAgent f).freeCount = s.freeCount := rfl
@[simp] theorem mapAgent_pending : (s.mapAgent f).pending = s.pending := rfl
end mapAgent

section mapEvents
variable (f : EventQueue → EventQueue)
@[simp] theorem mapEvents_pins : (s.mapEvents f).pins = s.pins := rfl
@[simp] theorem mapEvents_sprs : (s.mapEvents f).sprs = s.sprs := rfl
@[simp] theorem mapEvents_txPool : (s.mapEvents f).txPool = s.txPool := rfl
@[simp] theorem mapEvents_sched : (s.mapEvents f).sched = s.sched := rfl
@[simp] theorem mapEvents_trunkTx : (s.mapEvents f).trunkTx = s.trunkTx := rfl
@[simp] theorem mapEvents_reception : (s.mapEvents f).reception = s.reception := rfl
@[simp] theorem mapEvents_link : (s.mapEvents f).link = s.link := rfl
@[simp] theorem mapEvents_reasm : (s.mapEvents f).reasm = s.reasm := rfl
@[simp] theorem mapEvents_rxPool : (s.mapEvents f).rxPool = s.rxPool := rfl
@[simp] theorem mapEvents_egress : (s.mapEvents f).egress = s.egress := rfl
@[simp] theorem mapEvents_config : (s.mapEvents f).config = s.config := rfl
@[simp] theorem mapEvents_agent : (s.mapEvents f).agent = s.agent := rfl
@[simp] theorem mapEvents_events : (s.mapEvents f).events = f s.events := rfl
@[simp] theorem mapEvents_counters : (s.mapEvents f).counters = s.counters := rfl
@[simp] theorem mapEvents_time : (s.mapEvents f).time = s.time := rfl
@[simp] theorem mapEvents_freeCount : (s.mapEvents f).freeCount = s.freeCount := rfl
@[simp] theorem mapEvents_pending : (s.mapEvents f).pending = s.pending := rfl
end mapEvents

section mapCounters
variable (f : CounterBank → CounterBank)
@[simp] theorem mapCounters_pins : (s.mapCounters f).pins = s.pins := rfl
@[simp] theorem mapCounters_sprs : (s.mapCounters f).sprs = s.sprs := rfl
@[simp] theorem mapCounters_txPool : (s.mapCounters f).txPool = s.txPool := rfl
@[simp] theorem mapCounters_sched : (s.mapCounters f).sched = s.sched := rfl
@[simp] theorem mapCounters_trunkTx : (s.mapCounters f).trunkTx = s.trunkTx := rfl
@[simp] theorem mapCounters_reception : (s.mapCounters f).reception = s.reception := rfl
@[simp] theorem mapCounters_link : (s.mapCounters f).link = s.link := rfl
@[simp] theorem mapCounters_reasm : (s.mapCounters f).reasm = s.reasm := rfl
@[simp] theorem mapCounters_rxPool : (s.mapCounters f).rxPool = s.rxPool := rfl
@[simp] theorem mapCounters_egress : (s.mapCounters f).egress = s.egress := rfl
@[simp] theorem mapCounters_config : (s.mapCounters f).config = s.config := rfl
@[simp] theorem mapCounters_agent : (s.mapCounters f).agent = s.agent := rfl
@[simp] theorem mapCounters_events : (s.mapCounters f).events = s.events := rfl
@[simp] theorem mapCounters_counters : (s.mapCounters f).counters = f s.counters := rfl
@[simp] theorem mapCounters_time : (s.mapCounters f).time = s.time := rfl
@[simp] theorem mapCounters_freeCount : (s.mapCounters f).freeCount = s.freeCount := rfl
@[simp] theorem mapCounters_pending : (s.mapCounters f).pending = s.pending := rfl
end mapCounters

section mapTime
variable (f : TimeBlock → TimeBlock)
@[simp] theorem mapTime_pins : (s.mapTime f).pins = s.pins := rfl
@[simp] theorem mapTime_sprs : (s.mapTime f).sprs = s.sprs := rfl
@[simp] theorem mapTime_txPool : (s.mapTime f).txPool = s.txPool := rfl
@[simp] theorem mapTime_sched : (s.mapTime f).sched = s.sched := rfl
@[simp] theorem mapTime_trunkTx : (s.mapTime f).trunkTx = s.trunkTx := rfl
@[simp] theorem mapTime_reception : (s.mapTime f).reception = s.reception := rfl
@[simp] theorem mapTime_link : (s.mapTime f).link = s.link := rfl
@[simp] theorem mapTime_reasm : (s.mapTime f).reasm = s.reasm := rfl
@[simp] theorem mapTime_rxPool : (s.mapTime f).rxPool = s.rxPool := rfl
@[simp] theorem mapTime_egress : (s.mapTime f).egress = s.egress := rfl
@[simp] theorem mapTime_config : (s.mapTime f).config = s.config := rfl
@[simp] theorem mapTime_agent : (s.mapTime f).agent = s.agent := rfl
@[simp] theorem mapTime_events : (s.mapTime f).events = s.events := rfl
@[simp] theorem mapTime_counters : (s.mapTime f).counters = s.counters := rfl
@[simp] theorem mapTime_time : (s.mapTime f).time = f s.time := rfl
@[simp] theorem mapTime_freeCount : (s.mapTime f).freeCount = s.freeCount := rfl
@[simp] theorem mapTime_pending : (s.mapTime f).pending = s.pending := rfl
end mapTime

section mapFreeCount
variable (f : Nat → Nat)
@[simp] theorem mapFreeCount_pins : (s.mapFreeCount f).pins = s.pins := rfl
@[simp] theorem mapFreeCount_sprs : (s.mapFreeCount f).sprs = s.sprs := rfl
@[simp] theorem mapFreeCount_txPool : (s.mapFreeCount f).txPool = s.txPool := rfl
@[simp] theorem mapFreeCount_sched : (s.mapFreeCount f).sched = s.sched := rfl
@[simp] theorem mapFreeCount_trunkTx : (s.mapFreeCount f).trunkTx = s.trunkTx := rfl
@[simp] theorem mapFreeCount_reception : (s.mapFreeCount f).reception = s.reception := rfl
@[simp] theorem mapFreeCount_link : (s.mapFreeCount f).link = s.link := rfl
@[simp] theorem mapFreeCount_reasm : (s.mapFreeCount f).reasm = s.reasm := rfl
@[simp] theorem mapFreeCount_rxPool : (s.mapFreeCount f).rxPool = s.rxPool := rfl
@[simp] theorem mapFreeCount_egress : (s.mapFreeCount f).egress = s.egress := rfl
@[simp] theorem mapFreeCount_config : (s.mapFreeCount f).config = s.config := rfl
@[simp] theorem mapFreeCount_agent : (s.mapFreeCount f).agent = s.agent := rfl
@[simp] theorem mapFreeCount_events : (s.mapFreeCount f).events = s.events := rfl
@[simp] theorem mapFreeCount_counters : (s.mapFreeCount f).counters = s.counters := rfl
@[simp] theorem mapFreeCount_time : (s.mapFreeCount f).time = s.time := rfl
@[simp] theorem mapFreeCount_freeCount : (s.mapFreeCount f).freeCount = f s.freeCount := rfl
@[simp] theorem mapFreeCount_pending : (s.mapFreeCount f).pending = s.pending := rfl
end mapFreeCount

end Sys2Proof.Machine.State
end

