-- ==== Sys2Proof/Laws/Frames.lean ====
section
/-! SUPPORT. For each shared operation, the blocks it leaves as they were. Each lemma is one conjunction, which simp takes
as one rewriting per block, so that no later proof unfolds an operation to see that a block is untouched. -/

namespace Sys2Proof.Machine.State

variable (s : State)

/-! ### Counters, Egress Queues, pools -/

@[simp] theorem useFree_frame :
    (s.useFree).pins = s.pins ∧ (s.useFree).sprs = s.sprs ∧ (s.useFree).txPool = s.txPool ∧
      (s.useFree).sched = s.sched ∧ (s.useFree).trunkTx = s.trunkTx ∧ (s.useFree).reception = s.reception ∧
      (s.useFree).link = s.link ∧ (s.useFree).reasm = s.reasm ∧ (s.useFree).rxPool = s.rxPool ∧
      (s.useFree).egress = s.egress ∧ (s.useFree).config = s.config ∧ (s.useFree).agent = s.agent ∧
      (s.useFree).events = s.events ∧ (s.useFree).counters = s.counters ∧ (s.useFree).time = s.time ∧
      (s.useFree).pending = s.pending := by
  simp [useFree]

@[simp] theorem countPort_frame (p : Port) (c : PortCounter) :
    (s.countPort p c).pins = s.pins ∧ (s.countPort p c).sprs = s.sprs ∧ (s.countPort p c).txPool = s.txPool ∧
      (s.countPort p c).sched = s.sched ∧ (s.countPort p c).trunkTx = s.trunkTx ∧
      (s.countPort p c).reception = s.reception ∧ (s.countPort p c).link = s.link ∧
      (s.countPort p c).reasm = s.reasm ∧ (s.countPort p c).rxPool = s.rxPool ∧ (s.countPort p c).egress = s.egress ∧
      (s.countPort p c).config = s.config ∧ (s.countPort p c).agent = s.agent ∧ (s.countPort p c).events = s.events ∧
      (s.countPort p c).time = s.time ∧ (s.countPort p c).freeCount = s.freeCount ∧
      (s.countPort p c).pending = s.pending := by
  simp [countPort]

@[simp] theorem countLevelBy_frame (l : Level) (c : LevelCounter) (n : Nat) :
    (s.countLevelBy l c n).pins = s.pins ∧ (s.countLevelBy l c n).sprs = s.sprs ∧
      (s.countLevelBy l c n).txPool = s.txPool ∧ (s.countLevelBy l c n).sched = s.sched ∧
      (s.countLevelBy l c n).trunkTx = s.trunkTx ∧ (s.countLevelBy l c n).reception = s.reception ∧
      (s.countLevelBy l c n).link = s.link ∧ (s.countLevelBy l c n).reasm = s.reasm ∧
      (s.countLevelBy l c n).rxPool = s.rxPool ∧ (s.countLevelBy l c n).egress = s.egress ∧
      (s.countLevelBy l c n).config = s.config ∧ (s.countLevelBy l c n).agent = s.agent ∧
      (s.countLevelBy l c n).events = s.events ∧ (s.countLevelBy l c n).time = s.time ∧
      (s.countLevelBy l c n).freeCount = s.freeCount ∧ (s.countLevelBy l c n).pending = s.pending := by
  simp [countLevelBy]

@[simp] theorem countLevel_frame (l : Level) (c : LevelCounter) :
    (s.countLevel l c).pins = s.pins ∧ (s.countLevel l c).sprs = s.sprs ∧ (s.countLevel l c).txPool = s.txPool ∧
      (s.countLevel l c).sched = s.sched ∧ (s.countLevel l c).trunkTx = s.trunkTx ∧
      (s.countLevel l c).reception = s.reception ∧ (s.countLevel l c).link = s.link ∧
      (s.countLevel l c).reasm = s.reasm ∧ (s.countLevel l c).rxPool = s.rxPool ∧
      (s.countLevel l c).egress = s.egress ∧ (s.countLevel l c).config = s.config ∧
      (s.countLevel l c).agent = s.agent ∧ (s.countLevel l c).events = s.events ∧ (s.countLevel l c).time = s.time ∧
      (s.countLevel l c).freeCount = s.freeCount ∧ (s.countLevel l c).pending = s.pending := by
  simp [countLevel]

@[simp] theorem countTrunk_frame (c : TrunkCounter) :
    (s.countTrunk c).pins = s.pins ∧ (s.countTrunk c).sprs = s.sprs ∧ (s.countTrunk c).txPool = s.txPool ∧
      (s.countTrunk c).sched = s.sched ∧ (s.countTrunk c).trunkTx = s.trunkTx ∧
      (s.countTrunk c).reception = s.reception ∧ (s.countTrunk c).link = s.link ∧ (s.countTrunk c).reasm = s.reasm ∧
      (s.countTrunk c).rxPool = s.rxPool ∧ (s.countTrunk c).egress = s.egress ∧ (s.countTrunk c).config = s.config ∧
      (s.countTrunk c).agent = s.agent ∧ (s.countTrunk c).events = s.events ∧ (s.countTrunk c).time = s.time ∧
      (s.countTrunk c).freeCount = s.freeCount ∧ (s.countTrunk c).pending = s.pending := by
  simp [countTrunk]

@[simp] theorem countMgmt_frame (c : MgmtCounter) :
    (s.countMgmt c).pins = s.pins ∧ (s.countMgmt c).sprs = s.sprs ∧ (s.countMgmt c).txPool = s.txPool ∧
      (s.countMgmt c).sched = s.sched ∧ (s.countMgmt c).trunkTx = s.trunkTx ∧
      (s.countMgmt c).reception = s.reception ∧ (s.countMgmt c).link = s.link ∧ (s.countMgmt c).reasm = s.reasm ∧
      (s.countMgmt c).rxPool = s.rxPool ∧ (s.countMgmt c).egress = s.egress ∧ (s.countMgmt c).config = s.config ∧
      (s.countMgmt c).agent = s.agent ∧ (s.countMgmt c).events = s.events ∧ (s.countMgmt c).time = s.time ∧
      (s.countMgmt c).freeCount = s.freeCount ∧ (s.countMgmt c).pending = s.pending := by
  simp [countMgmt]

@[simp] theorem countHit_frame (i : Nat) :
    (s.countHit i).pins = s.pins ∧ (s.countHit i).sprs = s.sprs ∧ (s.countHit i).txPool = s.txPool ∧
      (s.countHit i).sched = s.sched ∧ (s.countHit i).trunkTx = s.trunkTx ∧ (s.countHit i).reception = s.reception ∧
      (s.countHit i).link = s.link ∧ (s.countHit i).reasm = s.reasm ∧ (s.countHit i).rxPool = s.rxPool ∧
      (s.countHit i).egress = s.egress ∧ (s.countHit i).config = s.config ∧ (s.countHit i).agent = s.agent ∧
      (s.countHit i).events = s.events ∧ (s.countHit i).time = s.time ∧ (s.countHit i).freeCount = s.freeCount ∧
      (s.countHit i).pending = s.pending := by
  simp [countHit]

@[simp] theorem appendEgress_frame (p : Port) (n : Nat) :
    (s.appendEgress p n).pins = s.pins ∧ (s.appendEgress p n).sprs = s.sprs ∧
      (s.appendEgress p n).txPool = s.txPool ∧ (s.appendEgress p n).sched = s.sched ∧
      (s.appendEgress p n).trunkTx = s.trunkTx ∧ (s.appendEgress p n).reception = s.reception ∧
      (s.appendEgress p n).link = s.link ∧ (s.appendEgress p n).reasm = s.reasm ∧
      (s.appendEgress p n).rxPool = s.rxPool ∧ (s.appendEgress p n).config = s.config ∧
      (s.appendEgress p n).agent = s.agent ∧ (s.appendEgress p n).events = s.events ∧
      (s.appendEgress p n).counters = s.counters ∧ (s.appendEgress p n).time = s.time ∧
      (s.appendEgress p n).freeCount = s.freeCount ∧ (s.appendEgress p n).pending = s.pending := by
  simp [appendEgress]

@[simp] theorem releaseRx_frame (n : Nat) :
    (s.releaseRx n).pins = s.pins ∧ (s.releaseRx n).sprs = s.sprs ∧ (s.releaseRx n).txPool = s.txPool ∧
      (s.releaseRx n).sched = s.sched ∧ (s.releaseRx n).trunkTx = s.trunkTx ∧
      (s.releaseRx n).reception = s.reception ∧ (s.releaseRx n).link = s.link ∧ (s.releaseRx n).reasm = s.reasm ∧
      (s.releaseRx n).egress = s.egress ∧ (s.releaseRx n).config = s.config ∧ (s.releaseRx n).agent = s.agent ∧
      (s.releaseRx n).events = s.events ∧ (s.releaseRx n).counters = s.counters ∧ (s.releaseRx n).time = s.time ∧
      (s.releaseRx n).freeCount = s.freeCount ∧ (s.releaseRx n).pending = s.pending := by
  simp [releaseRx]

@[simp] theorem freeTx_frame (d : TxDescriptor) :
    (s.freeTx d).pins = s.pins ∧ (s.freeTx d).sprs = s.sprs ∧ (s.freeTx d).sched = s.sched ∧
      (s.freeTx d).trunkTx = s.trunkTx ∧ (s.freeTx d).reception = s.reception ∧ (s.freeTx d).link = s.link ∧
      (s.freeTx d).reasm = s.reasm ∧ (s.freeTx d).rxPool = s.rxPool ∧ (s.freeTx d).egress = s.egress ∧
      (s.freeTx d).config = s.config ∧ (s.freeTx d).agent = s.agent ∧ (s.freeTx d).events = s.events ∧
      (s.freeTx d).counters = s.counters ∧ (s.freeTx d).time = s.time ∧ (s.freeTx d).freeCount = s.freeCount ∧
      (s.freeTx d).pending = s.pending := by
  simp [freeTx]

/-! ### Event records -/

@[simp] theorem sendNotice_frame (r : EventRecord) :
    (s.sendNotice r).pins = s.pins ∧ (s.sendNotice r).sprs = s.sprs ∧ (s.sendNotice r).txPool = s.txPool ∧
      (s.sendNotice r).sched = s.sched ∧ (s.sendNotice r).trunkTx = s.trunkTx ∧
      (s.sendNotice r).reception = s.reception ∧ (s.sendNotice r).link = s.link ∧ (s.sendNotice r).reasm = s.reasm ∧
      (s.sendNotice r).config = s.config ∧ (s.sendNotice r).events = s.events ∧ (s.sendNotice r).time = s.time ∧
      (s.sendNotice r).freeCount = s.freeCount ∧ (s.sendNotice r).pending = s.pending := by
  unfold sendNotice placeReserve
  split <;> rename_i h <;> split at h <;> simp_all
  obtain ⟨-, rfl⟩ := h
  simp

@[simp] theorem noticeCheck_frame (r : EventRecord) :
    (s.noticeCheck r).pins = s.pins ∧ (s.noticeCheck r).sprs = s.sprs ∧ (s.noticeCheck r).txPool = s.txPool ∧
      (s.noticeCheck r).sched = s.sched ∧ (s.noticeCheck r).trunkTx = s.trunkTx ∧
      (s.noticeCheck r).reception = s.reception ∧ (s.noticeCheck r).link = s.link ∧
      (s.noticeCheck r).reasm = s.reasm ∧ (s.noticeCheck r).config = s.config ∧ (s.noticeCheck r).events = s.events ∧
      (s.noticeCheck r).time = s.time ∧ (s.noticeCheck r).freeCount = s.freeCount ∧
      (s.noticeCheck r).pending = s.pending := by
  unfold noticeCheck
  split <;> simp

@[simp] theorem acceptRecord_frame (r : EventRecord) :
    (s.acceptRecord r).pins = s.pins ∧ (s.acceptRecord r).sprs = s.sprs ∧ (s.acceptRecord r).txPool = s.txPool ∧
      (s.acceptRecord r).sched = s.sched ∧ (s.acceptRecord r).trunkTx = s.trunkTx ∧
      (s.acceptRecord r).reception = s.reception ∧ (s.acceptRecord r).link = s.link ∧
      (s.acceptRecord r).reasm = s.reasm ∧ (s.acceptRecord r).config = s.config ∧ (s.acceptRecord r).time = s.time ∧
      (s.acceptRecord r).freeCount = s.freeCount ∧ (s.acceptRecord r).pending = s.pending := by
  simp [acceptRecord]

@[simp] theorem offerEvent_frame (k : EventKind) (b : Subject) (n : Option Half) (d : Half) :
    (s.offerEvent k b n d).pins = s.pins ∧ (s.offerEvent k b n d).sprs = s.sprs ∧
      (s.offerEvent k b n d).txPool = s.txPool ∧ (s.offerEvent k b n d).sched = s.sched ∧
      (s.offerEvent k b n d).trunkTx = s.trunkTx ∧ (s.offerEvent k b n d).reception = s.reception ∧
      (s.offerEvent k b n d).link = s.link ∧ (s.offerEvent k b n d).reasm = s.reasm ∧
      (s.offerEvent k b n d).config = s.config ∧ (s.offerEvent k b n d).time = s.time ∧
      (s.offerEvent k b n d).freeCount = s.freeCount ∧ (s.offerEvent k b n d).pending = s.pending := by
  unfold offerEvent
  repeat' split
  all_goals simp

@[simp] theorem txClaimFailed_frame (b : Subject) (n : Nat) :
    (s.txClaimFailed b n).pins = s.pins ∧ (s.txClaimFailed b n).sprs = s.sprs ∧
      (s.txClaimFailed b n).sched = s.sched ∧ (s.txClaimFailed b n).trunkTx = s.trunkTx ∧
      (s.txClaimFailed b n).reception = s.reception ∧ (s.txClaimFailed b n).link = s.link ∧
      (s.txClaimFailed b n).reasm = s.reasm ∧ (s.txClaimFailed b n).config = s.config ∧
      (s.txClaimFailed b n).time = s.time ∧ (s.txClaimFailed b n).freeCount = s.freeCount ∧
      (s.txClaimFailed b n).pending = s.pending := by
  unfold txClaimFailed
  split <;> simp

@[simp] theorem rxClaimFailed_frame (l : Level) (h : Half) (n : Nat) :
    (s.rxClaimFailed l h n).pins = s.pins ∧ (s.rxClaimFailed l h n).sprs = s.sprs ∧
      (s.rxClaimFailed l h n).txPool = s.txPool ∧ (s.rxClaimFailed l h n).sched = s.sched ∧
      (s.rxClaimFailed l h n).trunkTx = s.trunkTx ∧ (s.rxClaimFailed l h n).reception = s.reception ∧
      (s.rxClaimFailed l h n).link = s.link ∧ (s.rxClaimFailed l h n).reasm = s.reasm ∧
      (s.rxClaimFailed l h n).config = s.config ∧ (s.rxClaimFailed l h n).time = s.time ∧
      (s.rxClaimFailed l h n).freeCount = s.freeCount ∧ (s.rxClaimFailed l h n).pending = s.pending := by
  unfold rxClaimFailed
  split <;> simp

/-! ### Credit reports and selection -/

@[simp] theorem reportLevel_frame (l : Level) :
    (s.reportLevel l).pins = s.pins ∧ (s.reportLevel l).sprs = s.sprs ∧ (s.reportLevel l).txPool = s.txPool ∧
      (s.reportLevel l).sched = s.sched ∧ (s.reportLevel l).trunkTx = s.trunkTx ∧
      (s.reportLevel l).reception = s.reception ∧ (s.reportLevel l).reasm = s.reasm ∧
      (s.reportLevel l).rxPool = s.rxPool ∧ (s.reportLevel l).egress = s.egress ∧
      (s.reportLevel l).config = s.config ∧ (s.reportLevel l).agent = s.agent ∧ (s.reportLevel l).events = s.events ∧
      (s.reportLevel l).counters = s.counters ∧ (s.reportLevel l).time = s.time ∧
      (s.reportLevel l).freeCount = s.freeCount ∧ (s.reportLevel l).pending = s.pending := by
  unfold reportLevel
  split <;> simp

@[simp] theorem reportMoved_frame (before : State) :
    (reportMoved before s).pins = s.pins ∧ (reportMoved before s).sprs = s.sprs ∧
      (reportMoved before s).txPool = s.txPool ∧ (reportMoved before s).sched = s.sched ∧
      (reportMoved before s).trunkTx = s.trunkTx ∧ (reportMoved before s).reception = s.reception ∧
      (reportMoved before s).reasm = s.reasm ∧ (reportMoved before s).rxPool = s.rxPool ∧
      (reportMoved before s).egress = s.egress ∧ (reportMoved before s).config = s.config ∧
      (reportMoved before s).agent = s.agent ∧ (reportMoved before s).events = s.events ∧
      (reportMoved before s).counters = s.counters ∧ (reportMoved before s).time = s.time ∧
      (reportMoved before s).freeCount = s.freeCount ∧ (reportMoved before s).pending = s.pending := by
  unfold reportMoved fourIndices
  simp only [List.foldl]
  repeat' split
  all_goals simp

@[simp] theorem placeSegment_frame (g : Segment) :
    (s.placeSegment g).pins = s.pins ∧ (s.placeSegment g).sprs = s.sprs ∧ (s.placeSegment g).txPool = s.txPool ∧
      (s.placeSegment g).sched = s.sched ∧ (s.placeSegment g).reception = s.reception ∧
      (s.placeSegment g).link = s.link ∧ (s.placeSegment g).reasm = s.reasm ∧ (s.placeSegment g).rxPool = s.rxPool ∧
      (s.placeSegment g).egress = s.egress ∧ (s.placeSegment g).config = s.config ∧
      (s.placeSegment g).agent = s.agent ∧ (s.placeSegment g).events = s.events ∧
      (s.placeSegment g).counters = s.counters ∧ (s.placeSegment g).time = s.time ∧
      (s.placeSegment g).freeCount = s.freeCount ∧ (s.placeSegment g).pending = s.pending := by
  simp [placeSegment]

@[simp] theorem selectControl_frame :
    (s.selectControl).pins = s.pins ∧ (s.selectControl).sprs = s.sprs ∧ (s.selectControl).txPool = s.txPool ∧
      (s.selectControl).sched = s.sched ∧ (s.selectControl).reception = s.reception ∧
      (s.selectControl).reasm = s.reasm ∧ (s.selectControl).rxPool = s.rxPool ∧ (s.selectControl).egress = s.egress ∧
      (s.selectControl).config = s.config ∧ (s.selectControl).agent = s.agent ∧ (s.selectControl).events = s.events ∧
      (s.selectControl).counters = s.counters ∧ (s.selectControl).time = s.time ∧
      (s.selectControl).freeCount = s.freeCount ∧ (s.selectControl).pending = s.pending := by
  simp [selectControl]

@[simp] theorem selectStart_frame (l : Level) (f : TxDescriptor) (rest : List TxDescriptor) :
    (s.selectStart l f rest).pins = s.pins ∧ (s.selectStart l f rest).sprs = s.sprs ∧
      (s.selectStart l f rest).txPool = s.txPool ∧ (s.selectStart l f rest).reception = s.reception ∧
      (s.selectStart l f rest).link = s.link ∧ (s.selectStart l f rest).reasm = s.reasm ∧
      (s.selectStart l f rest).rxPool = s.rxPool ∧ (s.selectStart l f rest).egress = s.egress ∧
      (s.selectStart l f rest).config = s.config ∧ (s.selectStart l f rest).agent = s.agent ∧
      (s.selectStart l f rest).events = s.events ∧ (s.selectStart l f rest).time = s.time ∧
      (s.selectStart l f rest).freeCount = s.freeCount ∧ (s.selectStart l f rest).pending = s.pending := by
  unfold selectStart
  dsimp only
  split <;> simp

@[simp] theorem selectWhole_frame (l : Level) (f : TxDescriptor) (rest : List TxDescriptor) :
    (s.selectWhole l f rest).pins = s.pins ∧ (s.selectWhole l f rest).sprs = s.sprs ∧
      (s.selectWhole l f rest).txPool = s.txPool ∧ (s.selectWhole l f rest).reception = s.reception ∧
      (s.selectWhole l f rest).link = s.link ∧ (s.selectWhole l f rest).reasm = s.reasm ∧
      (s.selectWhole l f rest).rxPool = s.rxPool ∧ (s.selectWhole l f rest).egress = s.egress ∧
      (s.selectWhole l f rest).config = s.config ∧ (s.selectWhole l f rest).agent = s.agent ∧
      (s.selectWhole l f rest).events = s.events ∧ (s.selectWhole l f rest).time = s.time ∧
      (s.selectWhole l f rest).freeCount = s.freeCount ∧ (s.selectWhole l f rest).pending = s.pending := by
  unfold selectWhole
  dsimp only
  split <;> simp

@[simp] theorem selectFirst_frame (l : Level) :
    (s.selectFirst l).pins = s.pins ∧ (s.selectFirst l).sprs = s.sprs ∧ (s.selectFirst l).txPool = s.txPool ∧
      (s.selectFirst l).reception = s.reception ∧ (s.selectFirst l).link = s.link ∧
      (s.selectFirst l).reasm = s.reasm ∧ (s.selectFirst l).rxPool = s.rxPool ∧ (s.selectFirst l).egress = s.egress ∧
      (s.selectFirst l).config = s.config ∧ (s.selectFirst l).agent = s.agent ∧ (s.selectFirst l).events = s.events ∧
      (s.selectFirst l).time = s.time ∧ (s.selectFirst l).freeCount = s.freeCount ∧
      (s.selectFirst l).pending = s.pending := by
  unfold selectFirst
  repeat' split
  all_goals simp

@[simp] theorem selectNext_frame (e : TxEntry) (below : List TxEntry) :
    (s.selectNext e below).pins = s.pins ∧ (s.selectNext e below).sprs = s.sprs ∧
      (s.selectNext e below).txPool = s.txPool ∧ (s.selectNext e below).reception = s.reception ∧
      (s.selectNext e below).link = s.link ∧ (s.selectNext e below).reasm = s.reasm ∧
      (s.selectNext e below).rxPool = s.rxPool ∧ (s.selectNext e below).egress = s.egress ∧
      (s.selectNext e below).config = s.config ∧ (s.selectNext e below).agent = s.agent ∧
      (s.selectNext e below).events = s.events ∧ (s.selectNext e below).counters = s.counters ∧
      (s.selectNext e below).time = s.time ∧ (s.selectNext e below).freeCount = s.freeCount ∧
      (s.selectNext e below).pending = s.pending := by
  simp [selectNext]

@[simp] theorem select_frame :
    (s.select).pins = s.pins ∧ (s.select).sprs = s.sprs ∧ (s.select).txPool = s.txPool ∧
      (s.select).reception = s.reception ∧ (s.select).reasm = s.reasm ∧ (s.select).rxPool = s.rxPool ∧
      (s.select).egress = s.egress ∧ (s.select).config = s.config ∧ (s.select).agent = s.agent ∧
      (s.select).events = s.events ∧ (s.select).time = s.time ∧ (s.select).freeCount = s.freeCount ∧
      (s.select).pending = s.pending := by
  unfold select
  repeat' split
  all_goals simp

@[simp] theorem selectIfFree_frame :
    (s.selectIfFree).pins = s.pins ∧ (s.selectIfFree).sprs = s.sprs ∧ (s.selectIfFree).txPool = s.txPool ∧
      (s.selectIfFree).reception = s.reception ∧ (s.selectIfFree).reasm = s.reasm ∧
      (s.selectIfFree).rxPool = s.rxPool ∧ (s.selectIfFree).egress = s.egress ∧ (s.selectIfFree).config = s.config ∧
      (s.selectIfFree).agent = s.agent ∧ (s.selectIfFree).events = s.events ∧ (s.selectIfFree).time = s.time ∧
      (s.selectIfFree).freeCount = s.freeCount ∧ (s.selectIfFree).pending = s.pending := by
  unfold selectIfFree
  split <;> simp

@[simp] theorem selectionTrigger_frame :
    (s.selectionTrigger).pins = s.pins ∧ (s.selectionTrigger).sprs = s.sprs ∧
      (s.selectionTrigger).txPool = s.txPool ∧ (s.selectionTrigger).reception = s.reception ∧
      (s.selectionTrigger).reasm = s.reasm ∧ (s.selectionTrigger).rxPool = s.rxPool ∧
      (s.selectionTrigger).egress = s.egress ∧ (s.selectionTrigger).config = s.config ∧
      (s.selectionTrigger).agent = s.agent ∧ (s.selectionTrigger).events = s.events ∧
      (s.selectionTrigger).time = s.time ∧ (s.selectionTrigger).freeCount = s.freeCount ∧
      (s.selectionTrigger).pending = s.pending := by
  unfold selectionTrigger
  split <;> simp

@[simp] theorem triggerIfDue_frame (before : State) :
    (triggerIfDue before s).pins = s.pins ∧ (triggerIfDue before s).sprs = s.sprs ∧
      (triggerIfDue before s).txPool = s.txPool ∧ (triggerIfDue before s).reception = s.reception ∧
      (triggerIfDue before s).reasm = s.reasm ∧ (triggerIfDue before s).rxPool = s.rxPool ∧
      (triggerIfDue before s).egress = s.egress ∧ (triggerIfDue before s).config = s.config ∧
      (triggerIfDue before s).agent = s.agent ∧ (triggerIfDue before s).events = s.events ∧
      (triggerIfDue before s).time = s.time ∧ (triggerIfDue before s).freeCount = s.freeCount ∧
      (triggerIfDue before s).pending = s.pending := by
  unfold triggerIfDue
  split <;> simp

@[simp] theorem creditReport_frame (before : State) :
    (creditReport before s).pins = s.pins ∧ (creditReport before s).sprs = s.sprs ∧
      (creditReport before s).txPool = s.txPool ∧ (creditReport before s).reception = s.reception ∧
      (creditReport before s).reasm = s.reasm ∧ (creditReport before s).rxPool = s.rxPool ∧
      (creditReport before s).egress = s.egress ∧ (creditReport before s).config = s.config ∧
      (creditReport before s).agent = s.agent ∧ (creditReport before s).events = s.events ∧
      (creditReport before s).time = s.time ∧ (creditReport before s).freeCount = s.freeCount ∧
      (creditReport before s).pending = s.pending := by
  simp [creditReport]

/-! ### Admission, completion, teardown of the Scheduler -/

@[simp] theorem joinQueue_frame (d : TxDescriptor) :
    (s.joinQueue d).pins = s.pins ∧ (s.joinQueue d).sprs = s.sprs ∧ (s.joinQueue d).txPool = s.txPool ∧
      (s.joinQueue d).trunkTx = s.trunkTx ∧ (s.joinQueue d).reception = s.reception ∧ (s.joinQueue d).link = s.link ∧
      (s.joinQueue d).reasm = s.reasm ∧ (s.joinQueue d).rxPool = s.rxPool ∧ (s.joinQueue d).egress = s.egress ∧
      (s.joinQueue d).config = s.config ∧ (s.joinQueue d).agent = s.agent ∧ (s.joinQueue d).events = s.events ∧
      (s.joinQueue d).time = s.time ∧ (s.joinQueue d).freeCount = s.freeCount ∧ (s.joinQueue d).pending = s.pending := by
  simp [joinQueue]

@[simp] theorem admission_frame (d : TxDescriptor) :
    (s.admission d).pins = s.pins ∧ (s.admission d).sprs = s.sprs ∧ (s.admission d).txPool = s.txPool ∧
      (s.admission d).reception = s.reception ∧ (s.admission d).reasm = s.reasm ∧ (s.admission d).rxPool = s.rxPool ∧
      (s.admission d).egress = s.egress ∧ (s.admission d).config = s.config ∧ (s.admission d).agent = s.agent ∧
      (s.admission d).events = s.events ∧ (s.admission d).time = s.time ∧ (s.admission d).freeCount = s.freeCount ∧
      (s.admission d).pending = s.pending := by
  simp [admission]

@[simp] theorem dataCompleted_frame (d : DataSegment) :
    (s.dataCompleted d).pins = s.pins ∧ (s.dataCompleted d).sprs = s.sprs ∧ (s.dataCompleted d).sched = s.sched ∧
      (s.dataCompleted d).trunkTx = s.trunkTx ∧ (s.dataCompleted d).reception = s.reception ∧
      (s.dataCompleted d).link = s.link ∧ (s.dataCompleted d).reasm = s.reasm ∧
      (s.dataCompleted d).rxPool = s.rxPool ∧ (s.dataCompleted d).egress = s.egress ∧
      (s.dataCompleted d).config = s.config ∧ (s.dataCompleted d).agent = s.agent ∧
      (s.dataCompleted d).events = s.events ∧ (s.dataCompleted d).time = s.time ∧
      (s.dataCompleted d).freeCount = s.freeCount ∧ (s.dataCompleted d).pending = s.pending := by
  unfold dataCompleted
  dsimp only
  split <;> simp

@[simp] theorem segmentCompleted_frame (g : Segment) :
    (s.segmentCompleted g).pins = s.pins ∧ (s.segmentCompleted g).sprs = s.sprs ∧
      (s.segmentCompleted g).sched = s.sched ∧ (s.segmentCompleted g).reception = s.reception ∧
      (s.segmentCompleted g).reasm = s.reasm ∧ (s.segmentCompleted g).rxPool = s.rxPool ∧
      (s.segmentCompleted g).egress = s.egress ∧ (s.segmentCompleted g).config = s.config ∧
      (s.segmentCompleted g).agent = s.agent ∧ (s.segmentCompleted g).events = s.events ∧
      (s.segmentCompleted g).time = s.time ∧ (s.segmentCompleted g).freeCount = s.freeCount ∧
      (s.segmentCompleted g).pending = s.pending := by
  unfold segmentCompleted
  dsimp only
  repeat' split
  all_goals simp

@[simp] theorem startLatched_frame :
    (s.startLatched).pins = s.pins ∧ (s.startLatched).sprs = s.sprs ∧ (s.startLatched).txPool = s.txPool ∧
      (s.startLatched).reception = s.reception ∧ (s.startLatched).reasm = s.reasm ∧
      (s.startLatched).rxPool = s.rxPool ∧ (s.startLatched).egress = s.egress ∧ (s.startLatched).config = s.config ∧
      (s.startLatched).agent = s.agent ∧ (s.startLatched).events = s.events ∧ (s.startLatched).time = s.time ∧
      (s.startLatched).freeCount = s.freeCount ∧ (s.startLatched).pending = s.pending := by
  unfold startLatched
  split <;> simp

@[simp] theorem freeTxAll_frame (ds : List TxDescriptor) :
    (s.freeTxAll ds).pins = s.pins ∧ (s.freeTxAll ds).sprs = s.sprs ∧ (s.freeTxAll ds).sched = s.sched ∧
      (s.freeTxAll ds).trunkTx = s.trunkTx ∧ (s.freeTxAll ds).reception = s.reception ∧
      (s.freeTxAll ds).link = s.link ∧ (s.freeTxAll ds).reasm = s.reasm ∧ (s.freeTxAll ds).rxPool = s.rxPool ∧
      (s.freeTxAll ds).egress = s.egress ∧ (s.freeTxAll ds).config = s.config ∧ (s.freeTxAll ds).agent = s.agent ∧
      (s.freeTxAll ds).events = s.events ∧ (s.freeTxAll ds).counters = s.counters ∧ (s.freeTxAll ds).time = s.time ∧
      (s.freeTxAll ds).freeCount = s.freeCount ∧ (s.freeTxAll ds).pending = s.pending := by
  unfold freeTxAll
  induction ds generalizing s with
  | nil => simp
  | cons d ds ih => simpa using ih (s.freeTx d)

@[simp] theorem flush_frame (l : Level) :
    (s.flush l).pins = s.pins ∧ (s.flush l).sprs = s.sprs ∧ (s.flush l).trunkTx = s.trunkTx ∧
      (s.flush l).reception = s.reception ∧ (s.flush l).link = s.link ∧ (s.flush l).reasm = s.reasm ∧
      (s.flush l).rxPool = s.rxPool ∧ (s.flush l).egress = s.egress ∧ (s.flush l).config = s.config ∧
      (s.flush l).agent = s.agent ∧ (s.flush l).events = s.events ∧ (s.flush l).time = s.time ∧
      (s.flush l).freeCount = s.freeCount ∧ (s.flush l).pending = s.pending := by
  simp [flush]

@[simp] theorem settleLevel_frame (before : State) (l : Level) :
    (settleLevel before s l).pins = s.pins ∧ (settleLevel before s l).sprs = s.sprs ∧
      (settleLevel before s l).trunkTx = s.trunkTx ∧ (settleLevel before s l).reception = s.reception ∧
      (settleLevel before s l).link = s.link ∧ (settleLevel before s l).reasm = s.reasm ∧
      (settleLevel before s l).rxPool = s.rxPool ∧ (settleLevel before s l).egress = s.egress ∧
      (settleLevel before s l).config = s.config ∧ (settleLevel before s l).agent = s.agent ∧
      (settleLevel before s l).events = s.events ∧ (settleLevel before s l).time = s.time ∧
      (settleLevel before s l).freeCount = s.freeCount ∧ (settleLevel before s l).pending = s.pending := by
  simp [settleLevel]

@[simp] theorem txTeardown_frame :
    (s.txTeardown).pins = s.pins ∧ (s.txTeardown).sprs = s.sprs ∧ (s.txTeardown).reception = s.reception ∧
      (s.txTeardown).link = s.link ∧ (s.txTeardown).reasm = s.reasm ∧ (s.txTeardown).config = s.config ∧
      (s.txTeardown).time = s.time ∧ (s.txTeardown).freeCount = s.freeCount ∧ (s.txTeardown).pending = s.pending := by
  unfold txTeardown fourIndices
  dsimp only [List.foldl]
  split <;> simp

/-! ### Management payloads and replies -/

@[simp] theorem dropPayload_frame (b : Subject) (r : DropReason) :
    (s.dropPayload b r).pins = s.pins ∧ (s.dropPayload b r).sprs = s.sprs ∧ (s.dropPayload b r).txPool = s.txPool ∧
      (s.dropPayload b r).sched = s.sched ∧ (s.dropPayload b r).trunkTx = s.trunkTx ∧
      (s.dropPayload b r).reception = s.reception ∧ (s.dropPayload b r).link = s.link ∧
      (s.dropPayload b r).reasm = s.reasm ∧ (s.dropPayload b r).config = s.config ∧
      (s.dropPayload b r).time = s.time ∧ (s.dropPayload b r).freeCount = s.freeCount ∧
      (s.dropPayload b r).pending = s.pending := by
  simp [dropPayload]

@[simp] theorem acceptRequest_frame (c : Source) (bs : List Byte) :
    (s.acceptRequest c bs).pins = s.pins ∧ (s.acceptRequest c bs).sprs = s.sprs ∧
      (s.acceptRequest c bs).txPool = s.txPool ∧ (s.acceptRequest c bs).sched = s.sched ∧
      (s.acceptRequest c bs).trunkTx = s.trunkTx ∧ (s.acceptRequest c bs).reception = s.reception ∧
      (s.acceptRequest c bs).link = s.link ∧ (s.acceptRequest c bs).reasm = s.reasm ∧
      (s.acceptRequest c bs).rxPool = s.rxPool ∧ (s.acceptRequest c bs).egress = s.egress ∧
      (s.acceptRequest c bs).config = s.config ∧ (s.acceptRequest c bs).events = s.events ∧
      (s.acceptRequest c bs).time = s.time ∧ (s.acceptRequest c bs).freeCount = s.freeCount ∧
      (s.acceptRequest c bs).pending = s.pending := by
  simp [acceptRequest]

@[simp] theorem stationPayload_frame (p : Port) (bs : List Byte) :
    (s.stationPayload p bs).pins = s.pins ∧ (s.stationPayload p bs).sprs = s.sprs ∧
      (s.stationPayload p bs).txPool = s.txPool ∧ (s.stationPayload p bs).sched = s.sched ∧
      (s.stationPayload p bs).trunkTx = s.trunkTx ∧ (s.stationPayload p bs).reception = s.reception ∧
      (s.stationPayload p bs).link = s.link ∧ (s.stationPayload p bs).reasm = s.reasm ∧
      (s.stationPayload p bs).config = s.config ∧ (s.stationPayload p bs).time = s.time ∧
      (s.stationPayload p bs).freeCount = s.freeCount ∧ (s.stationPayload p bs).pending = s.pending := by
  unfold stationPayload
  split <;> simp

@[simp] theorem localReply_frame (p : Port) (h : Half) (bs : List Byte) :
    ((s.localReply p h bs).1).pins = s.pins ∧ ((s.localReply p h bs).1).sprs = s.sprs ∧
      ((s.localReply p h bs).1).txPool = s.txPool ∧ ((s.localReply p h bs).1).sched = s.sched ∧
      ((s.localReply p h bs).1).trunkTx = s.trunkTx ∧ ((s.localReply p h bs).1).reception = s.reception ∧
      ((s.localReply p h bs).1).link = s.link ∧ ((s.localReply p h bs).1).reasm = s.reasm ∧
      ((s.localReply p h bs).1).config = s.config ∧ ((s.localReply p h bs).1).agent = s.agent ∧
      ((s.localReply p h bs).1).events = s.events ∧ ((s.localReply p h bs).1).time = s.time ∧
      ((s.localReply p h bs).1).freeCount = s.freeCount ∧ ((s.localReply p h bs).1).pending = s.pending := by
  unfold localReply placeReserve
  split <;> rename_i h <;> split at h <;> simp_all
  obtain ⟨-, rfl⟩ := h
  simp

@[simp] theorem answerPeer_frame (a : Status) (e : PeerEntry) :
    (answerPeer a s e).pins = s.pins ∧ (answerPeer a s e).sprs = s.sprs ∧ (answerPeer a s e).txPool = s.txPool ∧
      (answerPeer a s e).sched = s.sched ∧ (answerPeer a s e).trunkTx = s.trunkTx ∧
      (answerPeer a s e).reception = s.reception ∧ (answerPeer a s e).link = s.link ∧
      (answerPeer a s e).reasm = s.reasm ∧ (answerPeer a s e).config = s.config ∧
      (answerPeer a s e).agent = s.agent ∧ (answerPeer a s e).events = s.events ∧ (answerPeer a s e).time = s.time ∧
      (answerPeer a s e).freeCount = s.freeCount ∧ (answerPeer a s e).pending = s.pending := by
  simp [answerPeer]

/-- Answering any number of peer entries. -/
@[simp] theorem answerPeers_frame (a : Status) (es : List PeerEntry) :
    (es.foldl (answerPeer a) s).pins = s.pins ∧ (es.foldl (answerPeer a) s).sprs = s.sprs ∧
      (es.foldl (answerPeer a) s).txPool = s.txPool ∧ (es.foldl (answerPeer a) s).sched = s.sched ∧
      (es.foldl (answerPeer a) s).trunkTx = s.trunkTx ∧ (es.foldl (answerPeer a) s).reception = s.reception ∧
      (es.foldl (answerPeer a) s).link = s.link ∧ (es.foldl (answerPeer a) s).reasm = s.reasm ∧
      (es.foldl (answerPeer a) s).config = s.config ∧ (es.foldl (answerPeer a) s).agent = s.agent ∧
      (es.foldl (answerPeer a) s).events = s.events ∧ (es.foldl (answerPeer a) s).time = s.time ∧
      (es.foldl (answerPeer a) s).freeCount = s.freeCount ∧ (es.foldl (answerPeer a) s).pending = s.pending := by
  induction es generalizing s with
  | nil => simp
  | cons e es ih => simpa using ih (answerPeer a s e)

@[simp] theorem answerPeersDown_frame :
    (s.answerPeersDown).pins = s.pins ∧ (s.answerPeersDown).sprs = s.sprs ∧ (s.answerPeersDown).txPool = s.txPool ∧
      (s.answerPeersDown).sched = s.sched ∧ (s.answerPeersDown).trunkTx = s.trunkTx ∧
      (s.answerPeersDown).reception = s.reception ∧ (s.answerPeersDown).link = s.link ∧
      (s.answerPeersDown).reasm = s.reasm ∧ (s.answerPeersDown).config = s.config ∧
      (s.answerPeersDown).events = s.events ∧ (s.answerPeersDown).time = s.time ∧
      (s.answerPeersDown).freeCount = s.freeCount ∧ (s.answerPeersDown).pending = s.pending := by
  simp [answerPeersDown]

@[simp] theorem agentClaimFailed_frame (n : Nat) :
    (s.agentClaimFailed n).pins = s.pins ∧ (s.agentClaimFailed n).sprs = s.sprs ∧
      (s.agentClaimFailed n).sched = s.sched ∧ (s.agentClaimFailed n).trunkTx = s.trunkTx ∧
      (s.agentClaimFailed n).reception = s.reception ∧ (s.agentClaimFailed n).link = s.link ∧
      (s.agentClaimFailed n).reasm = s.reasm ∧ (s.agentClaimFailed n).config = s.config ∧
      (s.agentClaimFailed n).time = s.time ∧ (s.agentClaimFailed n).pending = s.pending := by
  simp [agentClaimFailed]

@[simp] theorem sendTrunk_frame (o : Origin) (bs : List Byte) :
    ((s.sendTrunk o bs).1).pins = s.pins ∧ ((s.sendTrunk o bs).1).sprs = s.sprs ∧
      ((s.sendTrunk o bs).1).reception = s.reception ∧ ((s.sendTrunk o bs).1).reasm = s.reasm ∧
      ((s.sendTrunk o bs).1).config = s.config ∧ ((s.sendTrunk o bs).1).time = s.time ∧
      ((s.sendTrunk o bs).1).pending = s.pending := by
  unfold sendTrunk
  split <;> simp

@[simp] theorem trunkReply_frame (g : Half) (bs : List Byte) :
    ((s.trunkReply g bs).1).pins = s.pins ∧ ((s.trunkReply g bs).1).sprs = s.sprs ∧
      ((s.trunkReply g bs).1).reception = s.reception ∧ ((s.trunkReply g bs).1).reasm = s.reasm ∧
      ((s.trunkReply g bs).1).config = s.config ∧ ((s.trunkReply g bs).1).time = s.time ∧
      ((s.trunkReply g bs).1).pending = s.pending := by
  unfold trunkReply
  split
  · have h := s.sendTrunk_frame .trunkReply bs
    split <;> rename_i e <;> rw [e] at h <;> simpa using h
  · simp

@[simp] theorem reply_frame (r : Request) (a : Status) (bs : List Byte) :
    ((s.reply r a bs).1).pins = s.pins ∧ ((s.reply r a bs).1).sprs = s.sprs ∧
      ((s.reply r a bs).1).reception = s.reception ∧ ((s.reply r a bs).1).reasm = s.reasm ∧
      ((s.reply r a bs).1).config = s.config ∧ ((s.reply r a bs).1).time = s.time ∧
      ((s.reply r a bs).1).pending = s.pending := by
  unfold reply
  split <;> simp

@[simp] theorem refuse_frame (r : Request) (a : Status) :
    (s.refuse r a).pins = s.pins ∧ (s.refuse r a).sprs = s.sprs ∧ (s.refuse r a).reception = s.reception ∧
      (s.refuse r a).reasm = s.reasm ∧ (s.refuse r a).config = s.config ∧ (s.refuse r a).time = s.time ∧
      (s.refuse r a).pending = s.pending := by
  simp [refuse]

@[simp] theorem relayReply_frame (n : Nat) (e : PeerEntry) :
    (s.relayReply n e).pins = s.pins ∧ (s.relayReply n e).sprs = s.sprs ∧ (s.relayReply n e).txPool = s.txPool ∧
      (s.relayReply n e).sched = s.sched ∧ (s.relayReply n e).trunkTx = s.trunkTx ∧
      (s.relayReply n e).reception = s.reception ∧ (s.relayReply n e).link = s.link ∧
      (s.relayReply n e).reasm = s.reasm ∧ (s.relayReply n e).config = s.config ∧
      (s.relayReply n e).events = s.events ∧ (s.relayReply n e).time = s.time ∧
      (s.relayReply n e).freeCount = s.freeCount ∧ (s.relayReply n e).pending = s.pending := by
  simp [relayReply]

@[simp] theorem lateReply_frame (n : Nat) (h : Half) :
    (s.lateReply n h).pins = s.pins ∧ (s.lateReply n h).sprs = s.sprs ∧ (s.lateReply n h).txPool = s.txPool ∧
      (s.lateReply n h).sched = s.sched ∧ (s.lateReply n h).trunkTx = s.trunkTx ∧
      (s.lateReply n h).reception = s.reception ∧ (s.lateReply n h).link = s.link ∧
      (s.lateReply n h).reasm = s.reasm ∧ (s.lateReply n h).config = s.config ∧ (s.lateReply n h).time = s.time ∧
      (s.lateReply n h).freeCount = s.freeCount ∧ (s.lateReply n h).pending = s.pending := by
  simp [lateReply]

@[simp] theorem peerReply_frame (n : Nat) (bs : List Byte) :
    (s.peerReply n bs).pins = s.pins ∧ (s.peerReply n bs).sprs = s.sprs ∧ (s.peerReply n bs).txPool = s.txPool ∧
      (s.peerReply n bs).sched = s.sched ∧ (s.peerReply n bs).trunkTx = s.trunkTx ∧
      (s.peerReply n bs).reception = s.reception ∧ (s.peerReply n bs).link = s.link ∧
      (s.peerReply n bs).reasm = s.reasm ∧ (s.peerReply n bs).config = s.config ∧ (s.peerReply n bs).time = s.time ∧
      (s.peerReply n bs).freeCount = s.freeCount ∧ (s.peerReply n bs).pending = s.pending := by
  unfold peerReply
  split <;> simp

@[simp] theorem trunkPayload_frame (n : Nat) (bs : List Byte) :
    (s.trunkPayload n bs).pins = s.pins ∧ (s.trunkPayload n bs).sprs = s.sprs ∧
      (s.trunkPayload n bs).txPool = s.txPool ∧ (s.trunkPayload n bs).sched = s.sched ∧
      (s.trunkPayload n bs).trunkTx = s.trunkTx ∧ (s.trunkPayload n bs).reception = s.reception ∧
      (s.trunkPayload n bs).link = s.link ∧ (s.trunkPayload n bs).reasm = s.reasm ∧
      (s.trunkPayload n bs).config = s.config ∧ (s.trunkPayload n bs).time = s.time ∧
      (s.trunkPayload n bs).freeCount = s.freeCount ∧ (s.trunkPayload n bs).pending = s.pending := by
  unfold trunkPayload
  split <;> simp

/-! ### Delivery and egress -/

@[simp] theorem offerTo_frame (n cells : Nat) (p : Port) :
    (offerTo n cells s p).pins = s.pins ∧ (offerTo n cells s p).sprs = s.sprs ∧
      (offerTo n cells s p).txPool = s.txPool ∧ (offerTo n cells s p).sched = s.sched ∧
      (offerTo n cells s p).trunkTx = s.trunkTx ∧ (offerTo n cells s p).reception = s.reception ∧
      (offerTo n cells s p).link = s.link ∧ (offerTo n cells s p).reasm = s.reasm ∧
      (offerTo n cells s p).config = s.config ∧ (offerTo n cells s p).agent = s.agent ∧
      (offerTo n cells s p).events = s.events ∧ (offerTo n cells s p).time = s.time ∧
      (offerTo n cells s p).freeCount = s.freeCount ∧ (offerTo n cells s p).pending = s.pending := by
  unfold offerTo
  split <;> simp

/-- Offering a frame to any ports. -/
@[simp] theorem offerToAll_frame (n cells : Nat) (ps : List Port) :
    (ps.foldl (offerTo n cells) s).pins = s.pins ∧ (ps.foldl (offerTo n cells) s).sprs = s.sprs ∧
      (ps.foldl (offerTo n cells) s).txPool = s.txPool ∧ (ps.foldl (offerTo n cells) s).sched = s.sched ∧
      (ps.foldl (offerTo n cells) s).trunkTx = s.trunkTx ∧ (ps.foldl (offerTo n cells) s).reception = s.reception ∧
      (ps.foldl (offerTo n cells) s).link = s.link ∧ (ps.foldl (offerTo n cells) s).reasm = s.reasm ∧
      (ps.foldl (offerTo n cells) s).config = s.config ∧ (ps.foldl (offerTo n cells) s).agent = s.agent ∧
      (ps.foldl (offerTo n cells) s).events = s.events ∧ (ps.foldl (offerTo n cells) s).time = s.time ∧
      (ps.foldl (offerTo n cells) s).freeCount = s.freeCount ∧ (ps.foldl (offerTo n cells) s).pending = s.pending := by
  induction ps generalizing s with
  | nil => simp
  | cons p ps ih => simpa using ih (offerTo n cells s p)

@[simp] theorem afterOffers_frame (n : Nat) :
    (s.afterOffers n).pins = s.pins ∧ (s.afterOffers n).sprs = s.sprs ∧ (s.afterOffers n).txPool = s.txPool ∧
      (s.afterOffers n).sched = s.sched ∧ (s.afterOffers n).trunkTx = s.trunkTx ∧
      (s.afterOffers n).reception = s.reception ∧ (s.afterOffers n).link = s.link ∧
      (s.afterOffers n).reasm = s.reasm ∧ (s.afterOffers n).egress = s.egress ∧ (s.afterOffers n).config = s.config ∧
      (s.afterOffers n).agent = s.agent ∧ (s.afterOffers n).events = s.events ∧
      (s.afterOffers n).counters = s.counters ∧ (s.afterOffers n).time = s.time ∧
      (s.afterOffers n).freeCount = s.freeCount ∧ (s.afterOffers n).pending = s.pending := by
  unfold afterOffers
  repeat' split
  all_goals simp

@[simp] theorem deliverUser_frame (n : Nat) (d : RxDescriptor) :
    (s.deliverUser n d).pins = s.pins ∧ (s.deliverUser n d).sprs = s.sprs ∧ (s.deliverUser n d).txPool = s.txPool ∧
      (s.deliverUser n d).sched = s.sched ∧ (s.deliverUser n d).trunkTx = s.trunkTx ∧
      (s.deliverUser n d).reception = s.reception ∧ (s.deliverUser n d).link = s.link ∧
      (s.deliverUser n d).reasm = s.reasm ∧ (s.deliverUser n d).config = s.config ∧
      (s.deliverUser n d).agent = s.agent ∧ (s.deliverUser n d).events = s.events ∧
      (s.deliverUser n d).time = s.time ∧ (s.deliverUser n d).freeCount = s.freeCount ∧
      (s.deliverUser n d).pending = s.pending := by
  simp [deliverUser]

@[simp] theorem deliver_frame (n : Nat) :
    (s.deliver n).pins = s.pins ∧ (s.deliver n).sprs = s.sprs ∧ (s.deliver n).txPool = s.txPool ∧
      (s.deliver n).sched = s.sched ∧ (s.deliver n).trunkTx = s.trunkTx ∧ (s.deliver n).reception = s.reception ∧
      (s.deliver n).link = s.link ∧ (s.deliver n).reasm = s.reasm ∧ (s.deliver n).config = s.config ∧
      (s.deliver n).time = s.time ∧ (s.deliver n).freeCount = s.freeCount ∧ (s.deliver n).pending = s.pending := by
  unfold deliver
  repeat' split
  all_goals simp

@[simp] theorem handOff_frame (l : Level) (n : Nat) :
    (s.handOff l n).pins = s.pins ∧ (s.handOff l n).sprs = s.sprs ∧ (s.handOff l n).txPool = s.txPool ∧
      (s.handOff l n).sched = s.sched ∧ (s.handOff l n).trunkTx = s.trunkTx ∧
      (s.handOff l n).reception = s.reception ∧ (s.handOff l n).link = s.link ∧ (s.handOff l n).reasm = s.reasm ∧
      (s.handOff l n).config = s.config ∧ (s.handOff l n).time = s.time ∧ (s.handOff l n).freeCount = s.freeCount ∧
      (s.handOff l n).pending = s.pending := by
  simp [handOff]

@[simp] theorem lowerRef_frame (n : Nat) :
    (s.lowerRef n).pins = s.pins ∧ (s.lowerRef n).sprs = s.sprs ∧ (s.lowerRef n).txPool = s.txPool ∧
      (s.lowerRef n).sched = s.sched ∧ (s.lowerRef n).trunkTx = s.trunkTx ∧ (s.lowerRef n).reception = s.reception ∧
      (s.lowerRef n).link = s.link ∧ (s.lowerRef n).reasm = s.reasm ∧ (s.lowerRef n).egress = s.egress ∧
      (s.lowerRef n).config = s.config ∧ (s.lowerRef n).agent = s.agent ∧ (s.lowerRef n).events = s.events ∧
      (s.lowerRef n).counters = s.counters ∧ (s.lowerRef n).time = s.time ∧ (s.lowerRef n).freeCount = s.freeCount ∧
      (s.lowerRef n).pending = s.pending := by
  unfold lowerRef
  repeat' split
  all_goals simp

@[simp] theorem frameOut_frame (p : Port) (n : Nat) :
    (s.frameOut p n).pins = s.pins ∧ (s.frameOut p n).sprs = s.sprs ∧ (s.frameOut p n).txPool = s.txPool ∧
      (s.frameOut p n).sched = s.sched ∧ (s.frameOut p n).trunkTx = s.trunkTx ∧
      (s.frameOut p n).reception = s.reception ∧ (s.frameOut p n).link = s.link ∧ (s.frameOut p n).reasm = s.reasm ∧
      (s.frameOut p n).config = s.config ∧ (s.frameOut p n).agent = s.agent ∧ (s.frameOut p n).events = s.events ∧
      (s.frameOut p n).time = s.time ∧ (s.frameOut p n).freeCount = s.freeCount ∧ (s.frameOut p n).pending = s.pending := by
  simp [frameOut]

/-! ### Reassembler -/

@[simp] theorem returnEntry_frame (e : RxEntry) :
    (s.returnEntry e).pins = s.pins ∧ (s.returnEntry e).sprs = s.sprs ∧ (s.returnEntry e).txPool = s.txPool ∧
      (s.returnEntry e).sched = s.sched ∧ (s.returnEntry e).trunkTx = s.trunkTx ∧
      (s.returnEntry e).reception = s.reception ∧ (s.returnEntry e).link = s.link ∧
      (s.returnEntry e).reasm = s.reasm ∧ (s.returnEntry e).egress = s.egress ∧ (s.returnEntry e).config = s.config ∧
      (s.returnEntry e).agent = s.agent ∧ (s.returnEntry e).events = s.events ∧
      (s.returnEntry e).counters = s.counters ∧ (s.returnEntry e).time = s.time ∧
      (s.returnEntry e).freeCount = s.freeCount ∧ (s.returnEntry e).pending = s.pending := by
  unfold returnEntry
  split <;> simp

@[simp] theorem returnEntryCells_frame (e : RxEntry) :
    (s.returnEntryCells e).pins = s.pins ∧ (s.returnEntryCells e).sprs = s.sprs ∧
      (s.returnEntryCells e).txPool = s.txPool ∧ (s.returnEntryCells e).sched = s.sched ∧
      (s.returnEntryCells e).trunkTx = s.trunkTx ∧ (s.returnEntryCells e).reception = s.reception ∧
      (s.returnEntryCells e).link = s.link ∧ (s.returnEntryCells e).reasm = s.reasm ∧
      (s.returnEntryCells e).egress = s.egress ∧ (s.returnEntryCells e).config = s.config ∧
      (s.returnEntryCells e).agent = s.agent ∧ (s.returnEntryCells e).events = s.events ∧
      (s.returnEntryCells e).counters = s.counters ∧ (s.returnEntryCells e).time = s.time ∧
      (s.returnEntryCells e).freeCount = s.freeCount ∧ (s.returnEntryCells e).pending = s.pending := by
  unfold returnEntryCells
  split <;> simp

@[simp] theorem markDiscarding_frame (l : Level) (r : AbortReason) :
    (s.markDiscarding l r).pins = s.pins ∧ (s.markDiscarding l r).sprs = s.sprs ∧
      (s.markDiscarding l r).txPool = s.txPool ∧ (s.markDiscarding l r).sched = s.sched ∧
      (s.markDiscarding l r).trunkTx = s.trunkTx ∧ (s.markDiscarding l r).reception = s.reception ∧
      (s.markDiscarding l r).link = s.link ∧ (s.markDiscarding l r).egress = s.egress ∧
      (s.markDiscarding l r).config = s.config ∧ (s.markDiscarding l r).agent = s.agent ∧
      (s.markDiscarding l r).events = s.events ∧ (s.markDiscarding l r).counters = s.counters ∧
      (s.markDiscarding l r).time = s.time ∧ (s.markDiscarding l r).freeCount = s.freeCount ∧
      (s.markDiscarding l r).pending = s.pending := by
  unfold markDiscarding
  split <;> simp

@[simp] theorem recordAbort_frame (l : Level) (h : Half) (r : AbortReason) :
    (s.recordAbort l h r).pins = s.pins ∧ (s.recordAbort l h r).sprs = s.sprs ∧
      (s.recordAbort l h r).txPool = s.txPool ∧ (s.recordAbort l h r).sched = s.sched ∧
      (s.recordAbort l h r).trunkTx = s.trunkTx ∧ (s.recordAbort l h r).reception = s.reception ∧
      (s.recordAbort l h r).link = s.link ∧ (s.recordAbort l h r).reasm = s.reasm ∧
      (s.recordAbort l h r).config = s.config ∧ (s.recordAbort l h r).time = s.time ∧
      (s.recordAbort l h r).freeCount = s.freeCount ∧ (s.recordAbort l h r).pending = s.pending := by
  simp [recordAbort]

@[simp] theorem abortEntry_frame (r : AbortReason) (e : RxEntry) :
    (abortEntry r s e).pins = s.pins ∧ (abortEntry r s e).sprs = s.sprs ∧ (abortEntry r s e).txPool = s.txPool ∧
      (abortEntry r s e).sched = s.sched ∧ (abortEntry r s e).trunkTx = s.trunkTx ∧
      (abortEntry r s e).reception = s.reception ∧ (abortEntry r s e).link = s.link ∧
      (abortEntry r s e).reasm = s.reasm ∧ (abortEntry r s e).config = s.config ∧ (abortEntry r s e).time = s.time ∧
      (abortEntry r s e).freeCount = s.freeCount ∧ (abortEntry r s e).pending = s.pending := by
  simp [abortEntry]

/-- Aborting any number of entries. -/
@[simp] theorem abortEntries_frame (r : AbortReason) (es : List RxEntry) :
    (es.foldl (abortEntry r) s).pins = s.pins ∧ (es.foldl (abortEntry r) s).sprs = s.sprs ∧
      (es.foldl (abortEntry r) s).txPool = s.txPool ∧ (es.foldl (abortEntry r) s).sched = s.sched ∧
      (es.foldl (abortEntry r) s).trunkTx = s.trunkTx ∧ (es.foldl (abortEntry r) s).reception = s.reception ∧
      (es.foldl (abortEntry r) s).link = s.link ∧ (es.foldl (abortEntry r) s).reasm = s.reasm ∧
      (es.foldl (abortEntry r) s).config = s.config ∧ (es.foldl (abortEntry r) s).time = s.time ∧
      (es.foldl (abortEntry r) s).freeCount = s.freeCount ∧ (es.foldl (abortEntry r) s).pending = s.pending := by
  induction es generalizing s with
  | nil => simp
  | cons e es ih => simpa using ih (abortEntry r s e)

@[simp] theorem setRxStack_frame (q : List RxEntry) :
    (s.setRxStack q).pins = s.pins ∧ (s.setRxStack q).sprs = s.sprs ∧ (s.setRxStack q).txPool = s.txPool ∧
      (s.setRxStack q).sched = s.sched ∧ (s.setRxStack q).trunkTx = s.trunkTx ∧
      (s.setRxStack q).reception = s.reception ∧ (s.setRxStack q).link = s.link ∧
      (s.setRxStack q).rxPool = s.rxPool ∧ (s.setRxStack q).egress = s.egress ∧ (s.setRxStack q).config = s.config ∧
      (s.setRxStack q).agent = s.agent ∧ (s.setRxStack q).events = s.events ∧
      (s.setRxStack q).counters = s.counters ∧ (s.setRxStack q).time = s.time ∧
      (s.setRxStack q).freeCount = s.freeCount ∧ (s.setRxStack q).pending = s.pending := by
  simp [setRxStack]

@[simp] theorem abortWhere_frame (f : RxEntry → Bool) (r : AbortReason) :
    (s.abortWhere f r).pins = s.pins ∧ (s.abortWhere f r).sprs = s.sprs ∧ (s.abortWhere f r).txPool = s.txPool ∧
      (s.abortWhere f r).sched = s.sched ∧ (s.abortWhere f r).trunkTx = s.trunkTx ∧
      (s.abortWhere f r).reception = s.reception ∧ (s.abortWhere f r).link = s.link ∧
      (s.abortWhere f r).config = s.config ∧ (s.abortWhere f r).time = s.time ∧
      (s.abortWhere f r).freeCount = s.freeCount ∧ (s.abortWhere f r).pending = s.pending := by
  simp [abortWhere]

@[simp] theorem abortAt_frame (l : Level) (r : AbortReason) :
    (s.abortAt l r).pins = s.pins ∧ (s.abortAt l r).sprs = s.sprs ∧ (s.abortAt l r).txPool = s.txPool ∧
      (s.abortAt l r).sched = s.sched ∧ (s.abortAt l r).trunkTx = s.trunkTx ∧
      (s.abortAt l r).reception = s.reception ∧ (s.abortAt l r).link = s.link ∧ (s.abortAt l r).config = s.config ∧
      (s.abortAt l r).time = s.time ∧ (s.abortAt l r).freeCount = s.freeCount ∧ (s.abortAt l r).pending = s.pending := by
  simp [abortAt]

@[simp] theorem abortAtOrAbove_frame (l : Level) :
    (s.abortAtOrAbove l).pins = s.pins ∧ (s.abortAtOrAbove l).sprs = s.sprs ∧
      (s.abortAtOrAbove l).txPool = s.txPool ∧ (s.abortAtOrAbove l).sched = s.sched ∧
      (s.abortAtOrAbove l).trunkTx = s.trunkTx ∧ (s.abortAtOrAbove l).reception = s.reception ∧
      (s.abortAtOrAbove l).link = s.link ∧ (s.abortAtOrAbove l).config = s.config ∧
      (s.abortAtOrAbove l).time = s.time ∧ (s.abortAtOrAbove l).freeCount = s.freeCount ∧
      (s.abortAtOrAbove l).pending = s.pending := by
  simp [abortAtOrAbove]

@[simp] theorem abortAbove_frame (l : Level) :
    (s.abortAbove l).pins = s.pins ∧ (s.abortAbove l).sprs = s.sprs ∧ (s.abortAbove l).txPool = s.txPool ∧
      (s.abortAbove l).sched = s.sched ∧ (s.abortAbove l).trunkTx = s.trunkTx ∧
      (s.abortAbove l).reception = s.reception ∧ (s.abortAbove l).link = s.link ∧
      (s.abortAbove l).config = s.config ∧ (s.abortAbove l).time = s.time ∧
      (s.abortAbove l).freeCount = s.freeCount ∧ (s.abortAbove l).pending = s.pending := by
  simp [abortAbove]

@[simp] theorem creditViolation_frame (l : Level) (h q : Half) :
    (s.creditViolation l h q).pins = s.pins ∧ (s.creditViolation l h q).sprs = s.sprs ∧
      (s.creditViolation l h q).txPool = s.txPool ∧ (s.creditViolation l h q).sched = s.sched ∧
      (s.creditViolation l h q).trunkTx = s.trunkTx ∧ (s.creditViolation l h q).reception = s.reception ∧
      (s.creditViolation l h q).link = s.link ∧ (s.creditViolation l h q).reasm = s.reasm ∧
      (s.creditViolation l h q).config = s.config ∧ (s.creditViolation l h q).time = s.time ∧
      (s.creditViolation l h q).freeCount = s.freeCount ∧ (s.creditViolation l h q).pending = s.pending := by
  simp [creditViolation]

@[simp] theorem cellRefused_frame (l : Level) (h q : Half) :
    (s.cellRefused l h q).pins = s.pins ∧ (s.cellRefused l h q).sprs = s.sprs ∧
      (s.cellRefused l h q).txPool = s.txPool ∧ (s.cellRefused l h q).sched = s.sched ∧
      (s.cellRefused l h q).trunkTx = s.trunkTx ∧ (s.cellRefused l h q).reception = s.reception ∧
      (s.cellRefused l h q).link = s.link ∧ (s.cellRefused l h q).reasm = s.reasm ∧
      (s.cellRefused l h q).config = s.config ∧ (s.cellRefused l h q).time = s.time ∧
      (s.cellRefused l h q).freeCount = s.freeCount ∧ (s.cellRefused l h q).pending = s.pending := by
  unfold cellRefused
  split <;> simp

@[simp] theorem pushRx_frame (e : RxEntry) :
    (s.pushRx e).pins = s.pins ∧ (s.pushRx e).sprs = s.sprs ∧ (s.pushRx e).txPool = s.txPool ∧
      (s.pushRx e).sched = s.sched ∧ (s.pushRx e).trunkTx = s.trunkTx ∧ (s.pushRx e).reception = s.reception ∧
      (s.pushRx e).link = s.link ∧ (s.pushRx e).rxPool = s.rxPool ∧ (s.pushRx e).egress = s.egress ∧
      (s.pushRx e).config = s.config ∧ (s.pushRx e).agent = s.agent ∧ (s.pushRx e).events = s.events ∧
      (s.pushRx e).counters = s.counters ∧ (s.pushRx e).time = s.time ∧ (s.pushRx e).freeCount = s.freeCount ∧
      (s.pushRx e).pending = s.pending := by
  simp [pushRx]

/-- A payload that was stored changes the Receive Pool alone. -/
theorem storeCell_eq {t : State} (l : Level) (n : Nat) (bs : List Byte) (h : s.storeCell l n bs = some t) :
    ∃ p, s.rxPool.storeCell l n bs = some p ∧ s.withinAllotment l = true ∧ t = s.mapRxPool fun _ => p := by
  unfold storeCell at h
  split at h <;> simp_all
  obtain ⟨p, hp, rfl⟩ := h
  exact ⟨p, hp, rfl⟩

@[simp] theorem startFrame_frame (d : RxData) :
    (s.startFrame d).pins = s.pins ∧ (s.startFrame d).sprs = s.sprs ∧ (s.startFrame d).txPool = s.txPool ∧
      (s.startFrame d).sched = s.sched ∧ (s.startFrame d).trunkTx = s.trunkTx ∧
      (s.startFrame d).reception = s.reception ∧ (s.startFrame d).link = s.link ∧
      (s.startFrame d).config = s.config ∧ (s.startFrame d).time = s.time ∧
      (s.startFrame d).freeCount = s.freeCount ∧ (s.startFrame d).pending = s.pending := by
  unfold startFrame
  split
  · simp
  · dsimp only
    split
    · simp
    · rename_i h
      obtain ⟨p, -, -, rfl⟩ := storeCell_eq _ _ _ _ h
      simp

@[simp] theorem wholeFrame_frame (d : RxData) :
    (s.wholeFrame d).pins = s.pins ∧ (s.wholeFrame d).sprs = s.sprs ∧ (s.wholeFrame d).txPool = s.txPool ∧
      (s.wholeFrame d).sched = s.sched ∧ (s.wholeFrame d).trunkTx = s.trunkTx ∧
      (s.wholeFrame d).reception = s.reception ∧ (s.wholeFrame d).link = s.link ∧ (s.wholeFrame d).reasm = s.reasm ∧
      (s.wholeFrame d).config = s.config ∧ (s.wholeFrame d).time = s.time ∧
      (s.wholeFrame d).freeCount = s.freeCount ∧ (s.wholeFrame d).pending = s.pending := by
  unfold wholeFrame
  split
  · simp
  · split
    · simp
    · rename_i h
      obtain ⟨p, -, -, rfl⟩ := storeCell_eq _ _ _ _ h
      simp

@[simp] theorem orphan_frame (l : Level) :
    (s.orphan l).pins = s.pins ∧ (s.orphan l).sprs = s.sprs ∧ (s.orphan l).txPool = s.txPool ∧
      (s.orphan l).sched = s.sched ∧ (s.orphan l).trunkTx = s.trunkTx ∧ (s.orphan l).reception = s.reception ∧
      (s.orphan l).link = s.link ∧ (s.orphan l).reasm = s.reasm ∧ (s.orphan l).rxPool = s.rxPool ∧
      (s.orphan l).egress = s.egress ∧ (s.orphan l).config = s.config ∧ (s.orphan l).agent = s.agent ∧
      (s.orphan l).events = s.events ∧ (s.orphan l).time = s.time ∧ (s.orphan l).freeCount = s.freeCount ∧
      (s.orphan l).pending = s.pending := by
  simp [orphan]

@[simp] theorem advanceEntry_frame (l : Level) (n : Nat) :
    (s.advanceEntry l n).pins = s.pins ∧ (s.advanceEntry l n).sprs = s.sprs ∧
      (s.advanceEntry l n).txPool = s.txPool ∧ (s.advanceEntry l n).sched = s.sched ∧
      (s.advanceEntry l n).trunkTx = s.trunkTx ∧ (s.advanceEntry l n).reception = s.reception ∧
      (s.advanceEntry l n).link = s.link ∧ (s.advanceEntry l n).rxPool = s.rxPool ∧
      (s.advanceEntry l n).egress = s.egress ∧ (s.advanceEntry l n).config = s.config ∧
      (s.advanceEntry l n).agent = s.agent ∧ (s.advanceEntry l n).events = s.events ∧
      (s.advanceEntry l n).counters = s.counters ∧ (s.advanceEntry l n).time = s.time ∧
      (s.advanceEntry l n).freeCount = s.freeCount ∧ (s.advanceEntry l n).pending = s.pending := by
  simp [advanceEntry]

@[simp] theorem storeSegment_frame (e : RxEntry) (d : RxData) :
    ((s.storeSegment e d).1).pins = s.pins ∧ ((s.storeSegment e d).1).sprs = s.sprs ∧
      ((s.storeSegment e d).1).txPool = s.txPool ∧ ((s.storeSegment e d).1).sched = s.sched ∧
      ((s.storeSegment e d).1).trunkTx = s.trunkTx ∧ ((s.storeSegment e d).1).reception = s.reception ∧
      ((s.storeSegment e d).1).link = s.link ∧ ((s.storeSegment e d).1).config = s.config ∧
      ((s.storeSegment e d).1).time = s.time ∧ ((s.storeSegment e d).1).freeCount = s.freeCount ∧
      ((s.storeSegment e d).1).pending = s.pending := by
  unfold storeSegment
  split
  · simp
  · split
    · simp
    · rename_i h
      obtain ⟨n, -, h⟩ := Option.bind_eq_some_iff.mp h
      obtain ⟨p, -, -, rfl⟩ := storeCell_eq _ _ _ _ h
      simp

@[simp] theorem completeFrame_frame (e : RxEntry) :
    (s.completeFrame e).pins = s.pins ∧ (s.completeFrame e).sprs = s.sprs ∧ (s.completeFrame e).txPool = s.txPool ∧
      (s.completeFrame e).sched = s.sched ∧ (s.completeFrame e).trunkTx = s.trunkTx ∧
      (s.completeFrame e).reception = s.reception ∧ (s.completeFrame e).link = s.link ∧
      (s.completeFrame e).config = s.config ∧ (s.completeFrame e).time = s.time ∧
      (s.completeFrame e).freeCount = s.freeCount ∧ (s.completeFrame e).pending = s.pending := by
  unfold completeFrame
  dsimp only
  split <;> simp

@[simp] theorem matchedSegment_frame (e : RxEntry) (d : RxData) :
    (s.matchedSegment e d).pins = s.pins ∧ (s.matchedSegment e d).sprs = s.sprs ∧
      (s.matchedSegment e d).txPool = s.txPool ∧ (s.matchedSegment e d).sched = s.sched ∧
      (s.matchedSegment e d).trunkTx = s.trunkTx ∧ (s.matchedSegment e d).reception = s.reception ∧
      (s.matchedSegment e d).link = s.link ∧ (s.matchedSegment e d).config = s.config ∧
      (s.matchedSegment e d).time = s.time ∧ (s.matchedSegment e d).freeCount = s.freeCount ∧
      (s.matchedSegment e d).pending = s.pending := by
  unfold matchedSegment
  dsimp only
  split
  · split <;> simp
  · have h := s.storeSegment_frame e d
    split <;> rename_i q <;> rw [q] at h <;> dsimp only at h <;> repeat' split
    all_goals simp [h]

@[simp] theorem continueFrame_frame (d : RxData) :
    (s.continueFrame d).pins = s.pins ∧ (s.continueFrame d).sprs = s.sprs ∧ (s.continueFrame d).txPool = s.txPool ∧
      (s.continueFrame d).sched = s.sched ∧ (s.continueFrame d).trunkTx = s.trunkTx ∧
      (s.continueFrame d).reception = s.reception ∧ (s.continueFrame d).link = s.link ∧
      (s.continueFrame d).config = s.config ∧ (s.continueFrame d).time = s.time ∧
      (s.continueFrame d).freeCount = s.freeCount ∧ (s.continueFrame d).pending = s.pending := by
  unfold continueFrame
  dsimp only
  repeat' split
  all_goals simp

@[simp] theorem kindRule_frame (d : RxData) :
    (s.kindRule d).pins = s.pins ∧ (s.kindRule d).sprs = s.sprs ∧ (s.kindRule d).txPool = s.txPool ∧
      (s.kindRule d).sched = s.sched ∧ (s.kindRule d).trunkTx = s.trunkTx ∧ (s.kindRule d).reception = s.reception ∧
      (s.kindRule d).link = s.link ∧ (s.kindRule d).config = s.config ∧ (s.kindRule d).time = s.time ∧
      (s.kindRule d).freeCount = s.freeCount ∧ (s.kindRule d).pending = s.pending := by
  unfold kindRule
  split <;> simp

@[simp] theorem expectNext_frame (l : Level) (q : Half) :
    (s.expectNext l q).pins = s.pins ∧ (s.expectNext l q).sprs = s.sprs ∧ (s.expectNext l q).txPool = s.txPool ∧
      (s.expectNext l q).sched = s.sched ∧ (s.expectNext l q).trunkTx = s.trunkTx ∧
      (s.expectNext l q).reception = s.reception ∧ (s.expectNext l q).link = s.link ∧
      (s.expectNext l q).rxPool = s.rxPool ∧ (s.expectNext l q).egress = s.egress ∧
      (s.expectNext l q).config = s.config ∧ (s.expectNext l q).agent = s.agent ∧
      (s.expectNext l q).events = s.events ∧ (s.expectNext l q).counters = s.counters ∧
      (s.expectNext l q).time = s.time ∧ (s.expectNext l q).freeCount = s.freeCount ∧
      (s.expectNext l q).pending = s.pending := by
  simp [expectNext]

@[simp] theorem reassemble_frame (d : RxData) :
    (s.reassemble d).pins = s.pins ∧ (s.reassemble d).sprs = s.sprs ∧ (s.reassemble d).txPool = s.txPool ∧
      (s.reassemble d).sched = s.sched ∧ (s.reassemble d).trunkTx = s.trunkTx ∧
      (s.reassemble d).reception = s.reception ∧ (s.reassemble d).link = s.link ∧
      (s.reassemble d).config = s.config ∧ (s.reassemble d).time = s.time ∧
      (s.reassemble d).freeCount = s.freeCount ∧ (s.reassemble d).pending = s.pending := by
  unfold reassemble
  dsimp only
  repeat' split
  all_goals simp

@[simp] theorem rxTeardown_frame :
    (s.rxTeardown).pins = s.pins ∧ (s.rxTeardown).sprs = s.sprs ∧ (s.rxTeardown).txPool = s.txPool ∧
      (s.rxTeardown).sched = s.sched ∧ (s.rxTeardown).trunkTx = s.trunkTx ∧ (s.rxTeardown).reception = s.reception ∧
      (s.rxTeardown).link = s.link ∧ (s.rxTeardown).config = s.config ∧ (s.rxTeardown).time = s.time ∧
      (s.rxTeardown).freeCount = s.freeCount ∧ (s.rxTeardown).pending = s.pending := by
  simp [rxTeardown]

/-! ### Link Controller -/

@[simp] theorem startHoldOff_frame :
    (s.startHoldOff).pins = s.pins ∧ (s.startHoldOff).sprs = s.sprs ∧ (s.startHoldOff).txPool = s.txPool ∧
      (s.startHoldOff).sched = s.sched ∧ (s.startHoldOff).trunkTx = s.trunkTx ∧
      (s.startHoldOff).reception = s.reception ∧ (s.startHoldOff).reasm = s.reasm ∧
      (s.startHoldOff).rxPool = s.rxPool ∧ (s.startHoldOff).egress = s.egress ∧ (s.startHoldOff).config = s.config ∧
      (s.startHoldOff).agent = s.agent ∧ (s.startHoldOff).events = s.events ∧
      (s.startHoldOff).counters = s.counters ∧ (s.startHoldOff).time = s.time ∧
      (s.startHoldOff).freeCount = s.freeCount ∧ (s.startHoldOff).pending = s.pending := by
  unfold startHoldOff
  split <;> simp

@[simp] theorem placeHello_frame :
    (s.placeHello).pins = s.pins ∧ (s.placeHello).sprs = s.sprs ∧ (s.placeHello).txPool = s.txPool ∧
      (s.placeHello).sched = s.sched ∧ (s.placeHello).reception = s.reception ∧ (s.placeHello).link = s.link ∧
      (s.placeHello).reasm = s.reasm ∧ (s.placeHello).rxPool = s.rxPool ∧ (s.placeHello).egress = s.egress ∧
      (s.placeHello).config = s.config ∧ (s.placeHello).agent = s.agent ∧ (s.placeHello).events = s.events ∧
      (s.placeHello).counters = s.counters ∧ (s.placeHello).time = s.time ∧ (s.placeHello).freeCount = s.freeCount ∧
      (s.placeHello).pending = s.pending := by
  simp [placeHello]

@[simp] theorem enterHello_frame :
    (s.enterHello).pins = s.pins ∧ (s.enterHello).sprs = s.sprs ∧ (s.enterHello).txPool = s.txPool ∧
      (s.enterHello).sched = s.sched ∧ (s.enterHello).reception = s.reception ∧ (s.enterHello).reasm = s.reasm ∧
      (s.enterHello).rxPool = s.rxPool ∧ (s.enterHello).egress = s.egress ∧ (s.enterHello).config = s.config ∧
      (s.enterHello).agent = s.agent ∧ (s.enterHello).events = s.events ∧ (s.enterHello).counters = s.counters ∧
      (s.enterHello).time = s.time ∧ (s.enterHello).freeCount = s.freeCount ∧ (s.enterHello).pending = s.pending := by
  simp [enterHello]

@[simp] theorem enterUp_frame :
    (s.enterUp).pins = s.pins ∧ (s.enterUp).sprs = s.sprs ∧ (s.enterUp).txPool = s.txPool ∧
      (s.enterUp).reception = s.reception ∧ (s.enterUp).config = s.config ∧ (s.enterUp).time = s.time ∧
      (s.enterUp).freeCount = s.freeCount ∧ (s.enterUp).pending = s.pending := by
  simp [enterUp, fourIndices]

@[simp] theorem linkDown_frame (c : LinkCause) :
    (s.linkDown c).pins = s.pins ∧ (s.linkDown c).sprs = s.sprs ∧ (s.linkDown c).reception = s.reception ∧
      (s.linkDown c).config = s.config ∧ (s.linkDown c).time = s.time ∧ (s.linkDown c).freeCount = s.freeCount ∧
      (s.linkDown c).pending = s.pending := by
  unfold linkDown
  split <;> simp

@[simp] theorem linkDrop_frame :
    (s.linkDrop).pins = s.pins ∧ (s.linkDrop).sprs = s.sprs ∧ (s.linkDrop).reception = s.reception ∧
      (s.linkDrop).config = s.config ∧ (s.linkDrop).time = s.time ∧ (s.linkDrop).freeCount = s.freeCount ∧
      (s.linkDrop).pending = s.pending := by
  unfold linkDrop
  repeat' split
  all_goals simp

@[simp] theorem linkHold_frame :
    (s.linkHold).pins = s.pins ∧ (s.linkHold).sprs = s.sprs ∧ (s.linkHold).reception = s.reception ∧
      (s.linkHold).config = s.config ∧ (s.linkHold).time = s.time ∧ (s.linkHold).freeCount = s.freeCount ∧
      (s.linkHold).pending = s.pending := by
  unfold linkHold
  dsimp only
  split <;> simp

@[simp] theorem linkRelease_frame :
    (s.linkRelease).pins = s.pins ∧ (s.linkRelease).sprs = s.sprs ∧ (s.linkRelease).txPool = s.txPool ∧
      (s.linkRelease).sched = s.sched ∧ (s.linkRelease).trunkTx = s.trunkTx ∧
      (s.linkRelease).reception = s.reception ∧ (s.linkRelease).reasm = s.reasm ∧ (s.linkRelease).rxPool = s.rxPool ∧
      (s.linkRelease).egress = s.egress ∧ (s.linkRelease).config = s.config ∧ (s.linkRelease).agent = s.agent ∧
      (s.linkRelease).events = s.events ∧ (s.linkRelease).counters = s.counters ∧ (s.linkRelease).time = s.time ∧
      (s.linkRelease).freeCount = s.freeCount ∧ (s.linkRelease).pending = s.pending := by
  unfold linkRelease
  split <;> simp

@[simp] theorem linkAction_frame (a : LinkAction) :
    (s.linkAction a).pins = s.pins ∧ (s.linkAction a).sprs = s.sprs ∧ (s.linkAction a).reception = s.reception ∧
      (s.linkAction a).config = s.config ∧ (s.linkAction a).time = s.time ∧
      (s.linkAction a).freeCount = s.freeCount ∧ (s.linkAction a).pending = s.pending := by
  unfold linkAction
  split <;> simp

@[simp] theorem controlLimits_frame (q : Four Half) :
    (s.controlLimits q).pins = s.pins ∧ (s.controlLimits q).sprs = s.sprs ∧ (s.controlLimits q).txPool = s.txPool ∧
      (s.controlLimits q).reception = s.reception ∧ (s.controlLimits q).reasm = s.reasm ∧
      (s.controlLimits q).rxPool = s.rxPool ∧ (s.controlLimits q).egress = s.egress ∧
      (s.controlLimits q).config = s.config ∧ (s.controlLimits q).agent = s.agent ∧
      (s.controlLimits q).events = s.events ∧ (s.controlLimits q).time = s.time ∧
      (s.controlLimits q).freeCount = s.freeCount ∧ (s.controlLimits q).pending = s.pending := by
  unfold controlLimits
  dsimp only
  split <;> simp

@[simp] theorem storeHello_frame (q : Four Half) :
    (s.storeHello q).pins = s.pins ∧ (s.storeHello q).sprs = s.sprs ∧ (s.storeHello q).txPool = s.txPool ∧
      (s.storeHello q).sched = s.sched ∧ (s.storeHello q).trunkTx = s.trunkTx ∧
      (s.storeHello q).reception = s.reception ∧ (s.storeHello q).reasm = s.reasm ∧
      (s.storeHello q).rxPool = s.rxPool ∧ (s.storeHello q).egress = s.egress ∧ (s.storeHello q).config = s.config ∧
      (s.storeHello q).agent = s.agent ∧ (s.storeHello q).events = s.events ∧
      (s.storeHello q).counters = s.counters ∧ (s.storeHello q).time = s.time ∧
      (s.storeHello q).freeCount = s.freeCount ∧ (s.storeHello q).pending = s.pending := by
  simp [storeHello]

@[simp] theorem takeUp_frame (g : GoodSegment) :
    (s.takeUp g).pins = s.pins ∧ (s.takeUp g).sprs = s.sprs ∧ (s.takeUp g).txPool = s.txPool ∧
      (s.takeUp g).reception = s.reception ∧ (s.takeUp g).config = s.config ∧ (s.takeUp g).time = s.time ∧
      (s.takeUp g).freeCount = s.freeCount ∧ (s.takeUp g).pending = s.pending := by
  unfold takeUp
  split <;> simp

@[simp] theorem countEntrySegment_frame :
    (s.countEntrySegment).pins = s.pins ∧ (s.countEntrySegment).sprs = s.sprs ∧
      (s.countEntrySegment).txPool = s.txPool ∧ (s.countEntrySegment).sched = s.sched ∧
      (s.countEntrySegment).trunkTx = s.trunkTx ∧ (s.countEntrySegment).reception = s.reception ∧
      (s.countEntrySegment).reasm = s.reasm ∧ (s.countEntrySegment).rxPool = s.rxPool ∧
      (s.countEntrySegment).egress = s.egress ∧ (s.countEntrySegment).config = s.config ∧
      (s.countEntrySegment).agent = s.agent ∧ (s.countEntrySegment).events = s.events ∧
      (s.countEntrySegment).counters = s.counters ∧ (s.countEntrySegment).time = s.time ∧
      (s.countEntrySegment).pending = s.pending := by
  unfold countEntrySegment
  split <;> simp

@[simp] theorem enterUpAtHello_frame :
    (s.enterUpAtHello).pins = s.pins ∧ (s.enterUpAtHello).sprs = s.sprs ∧ (s.enterUpAtHello).txPool = s.txPool ∧
      (s.enterUpAtHello).reception = s.reception ∧ (s.enterUpAtHello).config = s.config ∧
      (s.enterUpAtHello).time = s.time ∧ (s.enterUpAtHello).freeCount = s.freeCount ∧
      (s.enterUpAtHello).pending = s.pending := by
  simp [enterUpAtHello]

@[simp] theorem enterUpWith_frame (g : GoodSegment) :
    (s.enterUpWith g).pins = s.pins ∧ (s.enterUpWith g).sprs = s.sprs ∧ (s.enterUpWith g).txPool = s.txPool ∧
      (s.enterUpWith g).reception = s.reception ∧ (s.enterUpWith g).config = s.config ∧
      (s.enterUpWith g).time = s.time ∧ (s.enterUpWith g).pending = s.pending := by
  unfold enterUpWith
  dsimp only
  split <;> simp

@[simp] theorem goodInHello_frame (g : GoodSegment) :
    (s.goodInHello g).pins = s.pins ∧ (s.goodInHello g).sprs = s.sprs ∧ (s.goodInHello g).txPool = s.txPool ∧
      (s.goodInHello g).reception = s.reception ∧ (s.goodInHello g).config = s.config ∧
      (s.goodInHello g).time = s.time ∧ (s.goodInHello g).pending = s.pending := by
  unfold goodInHello
  repeat' split
  all_goals simp

@[simp] theorem goodInUp_frame (g : GoodSegment) :
    (s.goodInUp g).pins = s.pins ∧ (s.goodInUp g).sprs = s.sprs ∧ (s.goodInUp g).reception = s.reception ∧
      (s.goodInUp g).config = s.config ∧ (s.goodInUp g).time = s.time ∧ (s.goodInUp g).freeCount = s.freeCount ∧
      (s.goodInUp g).pending = s.pending := by
  unfold goodInUp
  dsimp only
  repeat' split
  all_goals simp

@[simp] theorem goodSegment_frame (g : GoodSegment) :
    (s.goodSegment g).pins = s.pins ∧ (s.goodSegment g).sprs = s.sprs ∧ (s.goodSegment g).reception = s.reception ∧
      (s.goodSegment g).config = s.config ∧ (s.goodSegment g).time = s.time ∧ (s.goodSegment g).pending = s.pending := by
  unfold goodSegment
  dsimp only
  cases g <;> simp only <;> split <;> simp

@[simp] theorem badSegment_frame :
    (s.badSegment).pins = s.pins ∧ (s.badSegment).sprs = s.sprs ∧ (s.badSegment).reception = s.reception ∧
      (s.badSegment).config = s.config ∧ (s.badSegment).time = s.time ∧ (s.badSegment).freeCount = s.freeCount ∧
      (s.badSegment).pending = s.pending := by
  unfold badSegment
  dsimp only
  repeat' split
  all_goals simp

end Sys2Proof.Machine.State
end

