-- ==== Sys2Proof/Laws/Events.lean ====
section
/-! SUPPORT. What counting and offering an event record do inside the blocks they touch. -/

namespace Sys2Proof.Machine.State

variable (s : State)

/-! ### Counting -/

@[simp] theorem countPort_counters (p : Port) (c : PortCounter) :
    (s.countPort p c).counters = s.counters.plusPort p c := rfl
@[simp] theorem countLevelBy_counters (l : Level) (c : LevelCounter) (n : Nat) :
    (s.countLevelBy l c n).counters = s.counters.plusLevel l c n := rfl
@[simp] theorem countLevel_counters (l : Level) (c : LevelCounter) :
    (s.countLevel l c).counters = s.counters.plusLevel l c 1 := rfl
@[simp] theorem countTrunk_counters (c : TrunkCounter) : (s.countTrunk c).counters = s.counters.plusTrunk c := rfl
@[simp] theorem countMgmt_counters (c : MgmtCounter) : (s.countMgmt c).counters = s.counters.plusMgmt c := rfl
@[simp] theorem countHit_counters (i : Nat) :
    (s.countHit i).counters = s.counters.setHit i (s.counters.hit i + 1#32) := rfl

end Sys2Proof.Machine.State

namespace Sys2Proof.Machine.CounterBank

variable (b : CounterBank)

@[simp] theorem plusPort_other (p : Port) (c : PortCounter) :
    (b.plusPort p c).level = b.level ∧ (b.plusPort p c).trunk = b.trunk ∧ (b.plusPort p c).mgmt = b.mgmt ∧
      (b.plusPort p c).hits = b.hits := ⟨rfl, rfl, rfl, rfl⟩
@[simp] theorem plusLevel_other (l : Level) (c : LevelCounter) (n : Nat) :
    (b.plusLevel l c n).port = b.port ∧ (b.plusLevel l c n).trunk = b.trunk ∧ (b.plusLevel l c n).mgmt = b.mgmt ∧
      (b.plusLevel l c n).hits = b.hits := ⟨rfl, rfl, rfl, rfl⟩
@[simp] theorem plusTrunk_other (c : TrunkCounter) :
    (b.plusTrunk c).port = b.port ∧ (b.plusTrunk c).level = b.level ∧ (b.plusTrunk c).mgmt = b.mgmt ∧
      (b.plusTrunk c).hits = b.hits := ⟨rfl, rfl, rfl, rfl⟩
@[simp] theorem plusMgmt_other (c : MgmtCounter) :
    (b.plusMgmt c).port = b.port ∧ (b.plusMgmt c).level = b.level ∧ (b.plusMgmt c).trunk = b.trunk ∧
      (b.plusMgmt c).hits = b.hits := ⟨rfl, rfl, rfl, rfl⟩
@[simp] theorem setHit_other (i : Nat) (c : Count) :
    (b.setHit i c).port = b.port ∧ (b.setHit i c).level = b.level ∧ (b.setHit i c).trunk = b.trunk ∧
      (b.setHit i c).mgmt = b.mgmt := ⟨rfl, rfl, rfl, rfl⟩

end Sys2Proof.Machine.CounterBank

namespace Sys2Proof.Machine.State

variable (s : State)

/-! ### Sending a NOTICE and offering a record -/

/-- A claim on the reserve leaves the level part and the flag of the Receive Pool. -/
theorem claimReserve_levelPart (p q : RxPool) (n : Nat) (h : Half) (bs : List Byte)
    (e : p.claimReserve h bs = some (n, q)) :
    q.levelPart = p.levelPart ∧ q.exhaustionReported = p.exhaustionReported := by
  unfold RxPool.claimReserve at e
  repeat' split at e
  all_goals simp_all
  obtain ⟨rfl, rfl⟩ := e
  exact ⟨rfl, rfl⟩

/-- What a NOTICE can touch inside the Agent, the counters and the Receive Pool. -/
@[simp] theorem sendNotice_inside (r : EventRecord) :
    (s.sendNotice r).agent.mode = s.agent.mode ∧ (s.sendNotice r).agent.requests = s.agent.requests ∧
      (s.sendNotice r).agent.peers = s.agent.peers ∧ (s.sendNotice r).agent.nextLocalTag = s.agent.nextLocalTag ∧
      (s.sendNotice r).counters.port = s.counters.port ∧ (s.sendNotice r).counters.level = s.counters.level ∧
      (s.sendNotice r).counters.trunk = s.counters.trunk ∧ (s.sendNotice r).counters.hits = s.counters.hits ∧
      (s.sendNotice r).rxPool.levelPart = s.rxPool.levelPart ∧
      (s.sendNotice r).rxPool.exhaustionReported = s.rxPool.exhaustionReported := by
  unfold sendNotice placeReserve
  split
  · simp
  · rename_i h
    split at h
    · simp at h
    · rename_i n q e
      obtain ⟨h1, h2⟩ := claimReserve_levelPart _ _ _ _ _ e
      simp only [Option.some.injEq, Prod.mk.injEq] at h
      obtain ⟨-, rfl⟩ := h
      simp [h1, h2]

@[simp] theorem noticeCheck_inside (r : EventRecord) :
    (s.noticeCheck r).agent.mode = s.agent.mode ∧ (s.noticeCheck r).agent.requests = s.agent.requests ∧
      (s.noticeCheck r).agent.peers = s.agent.peers ∧ (s.noticeCheck r).agent.nextLocalTag = s.agent.nextLocalTag ∧
      (s.noticeCheck r).counters.port = s.counters.port ∧ (s.noticeCheck r).counters.level = s.counters.level ∧
      (s.noticeCheck r).counters.trunk = s.counters.trunk ∧ (s.noticeCheck r).counters.hits = s.counters.hits ∧
      (s.noticeCheck r).rxPool.levelPart = s.rxPool.levelPart ∧
      (s.noticeCheck r).rxPool.exhaustionReported = s.rxPool.exhaustionReported := by
  unfold noticeCheck
  split <;> simp

/-- With notices off no check sends anything. -/
theorem noticeCheck_quiet (r : EventRecord) (h : s.config.active.part.noticeEnabled = false) : s.noticeCheck r = s := by
  simp [noticeCheck, noticeDue, h]

/-- What offering a record leaves inside the blocks it can touch. -/
@[simp] theorem offerEvent_inside (k : EventKind) (b : Subject) (n : Option Half) (d : Half) :
    (s.offerEvent k b n d).agent.mode = s.agent.mode ∧ (s.offerEvent k b n d).agent.requests = s.agent.requests ∧
      (s.offerEvent k b n d).agent.peers = s.agent.peers ∧
      (s.offerEvent k b n d).agent.nextLocalTag = s.agent.nextLocalTag ∧
      (s.offerEvent k b n d).counters.port = s.counters.port ∧
      (s.offerEvent k b n d).counters.level = s.counters.level ∧
      (s.offerEvent k b n d).counters.trunk = s.counters.trunk ∧
      (s.offerEvent k b n d).counters.hits = s.counters.hits ∧
      (s.offerEvent k b n d).rxPool.levelPart = s.rxPool.levelPart ∧
      (s.offerEvent k b n d).rxPool.exhaustionReported = s.rxPool.exhaustionReported := by
  unfold offerEvent acceptRecord
  repeat' split
  all_goals simp

/-- A record offered while fewer than 31 are held stands at the tail (R180). -/
theorem offerEvent_accepted (k : EventKind) (b : Subject) (n : Option Half) (d : Half)
    (h : s.events.records.length < 31) :
    (s.offerEvent k b n d).events = s.events.accept (s.makeRecord k b n d) := by
  simp [offerEvent, acceptRecord, Config.eventPlaces, h]

/-- The same, in the words of the statements. -/
theorem recordAccepted_offerEvent (k : EventKind) (b : Subject) (n : Option Half) (d : Half) :
    recordAccepted s (s.offerEvent k b n d) k b n d := by
  intro h
  simp [offerEvent_accepted s k b n d h, EventQueue.accept, makeRecord, now]

/-- With notices off an offered record changes the Event Queue alone. -/
theorem offerEvent_quiet (k : EventKind) (b : Subject) (n : Option Half) (d : Half)
    (h : s.config.active.part.noticeEnabled = false) :
    (s.offerEvent k b n d).agent = s.agent ∧ (s.offerEvent k b n d).counters = s.counters ∧
      (s.offerEvent k b n d).rxPool = s.rxPool ∧ (s.offerEvent k b n d).egress = s.egress := by
  unfold offerEvent acceptRecord
  repeat' split
  all_goals simp [noticeCheck_quiet, h]

/-- A record that is held and is no loss record stays where it is (R180). -/
theorem offerEvent_keeps (k : EventKind) (b : Subject) (n : Option Half) (d : Half) (i : Nat) (r : EventRecord)
    (h : s.events.records[i]? = some r) (hr : r.kind ≠ .eventsLost) :
    (s.offerEvent k b n d).events.records[i]? = some r := by
  have hi : i < s.events.records.length := (List.getElem?_eq_some_iff.mp h).1
  unfold offerEvent acceptRecord
  repeat' split
  · simp [EventQueue.accept, List.getElem?_append_left hi, h]
  · simp [h, EventRecord.addLoss, hr]
  · simp [EventQueue.accept, List.getElem?_append_left hi, h]

end Sys2Proof.Machine.State
end

