-- ==== Sys2Proof/Laws/Sparse.lean ====
section
/-! SUPPORT. Sparse tables: what is read after an insertion or an erasure, and that both keep the canonical form. -/

namespace Sys2Proof.Machine

variable {α : Type}

@[simp] theorem sparseGet_nil (k : Nat) : sparseGet k ([] : List (Nat × α)) = none := rfl

theorem sparseGet_cons (k j : Nat) (v : α) (m : List (Nat × α)) :
    sparseGet k ((j, v) :: m) = if j = k then some v else sparseGet k m := rfl

/-- What is read after an insertion. -/
theorem sparseGet_insert (k j : Nat) (v : α) (m : List (Nat × α)) :
    sparseGet j (sparseInsert k v m) = if j = k then some v else sparseGet j m := by
  induction m with
  | nil =>
    simp only [sparseInsert, sparseGet_cons, sparseGet_nil]
    by_cases h : k = j
    · simp [h]
    · simp [h, Ne.symm h]
  | cons e m ih =>
    obtain ⟨i, w⟩ := e
    unfold sparseInsert
    split
    · simp only [sparseGet_cons]
      by_cases h : k = j
      · simp [h]
      · simp [h, Ne.symm h]
    · split
      · rename_i _ h
        subst h
        simp only [sparseGet_cons]
        by_cases h : k = j
        · simp [h]
        · simp [h, Ne.symm h]
      · rename_i _ h
        simp only [sparseGet_cons, ih]
        by_cases h1 : i = j
        · have : j ≠ k := fun e => h (e.symm.trans h1.symm)
          simp [h1, this]
        · simp [h1]

@[simp] theorem sparseGet_insert_self (k : Nat) (v : α) (m : List (Nat × α)) :
    sparseGet k (sparseInsert k v m) = some v := by
  simp [sparseGet_insert]

/-- What is read after an erasure. -/
theorem sparseGet_erase (k j : Nat) (m : List (Nat × α)) :
    sparseGet j (sparseErase k m) = if j = k then none else sparseGet j m := by
  induction m with
  | nil => simp [sparseErase]
  | cons e m ih =>
    obtain ⟨i, w⟩ := e
    unfold sparseErase
    split
    · rename_i h
      subst h
      rw [ih, sparseGet_cons]
      by_cases h : j = i
      · simp [h]
      · simp [h, Ne.symm h]
    · rename_i h
      simp only [sparseGet_cons, ih]
      by_cases h1 : i = j
      · have : j ≠ k := fun e => h (h1.trans e)
        simp [h1, this]
      · simp [h1]

/-- The keys of a table after an insertion or an erasure come from it or are the key itself. -/
theorem mem_sparseInsert (k : Nat) (v : α) (m : List (Nat × α)) (e : Nat × α) (h : e ∈ sparseInsert k v m) :
    e = (k, v) ∨ e ∈ m := by
  induction m with
  | nil => simpa [sparseInsert] using h
  | cons f m ih =>
    obtain ⟨i, w⟩ := f
    unfold sparseInsert at h
    split at h
    · simpa using h
    · split at h
      · simp only [List.mem_cons] at h ⊢
        rcases h with h | h
        · exact .inl h
        · exact .inr (.inr h)
      · simp only [List.mem_cons] at h ⊢
        rcases h with h | h
        · exact .inr (.inl h)
        · rcases ih h with h | h
          · exact .inl h
          · exact .inr (.inr h)

theorem mem_sparseErase (k : Nat) (m : List (Nat × α)) (e : Nat × α) (h : e ∈ sparseErase k m) : e ∈ m ∧ e.1 ≠ k := by
  induction m with
  | nil => simp [sparseErase] at h
  | cons f m ih =>
    obtain ⟨i, w⟩ := f
    unfold sparseErase at h
    split at h
    · exact ⟨List.mem_cons_of_mem _ (ih h).1, (ih h).2⟩
    · rename_i hk
      simp only [List.mem_cons] at h ⊢
      rcases h with h | h
      · subst h
        exact ⟨.inl rfl, hk⟩
      · exact ⟨.inr (ih h).1, (ih h).2⟩

theorem sparseRising_cons (k : Nat) (v : α) (m : List (Nat × α)) :
    sparseRising ((k, v) :: m) = true ↔ (∀ e ∈ m, k < e.1) ∧ sparseRising m = true := by
  simp [sparseRising]

/-- An insertion keeps the canonical form. -/
theorem sparseRising_insert (k : Nat) (v : α) (m : List (Nat × α)) (h : sparseRising m = true) :
    sparseRising (sparseInsert k v m) = true := by
  induction m with
  | nil => simp [sparseInsert, sparseRising]
  | cons f m ih =>
    obtain ⟨i, w⟩ := f
    obtain ⟨h1, h2⟩ := (sparseRising_cons _ _ _).mp h
    unfold sparseInsert
    split
    · rename_i hk
      refine (sparseRising_cons _ _ _).mpr ⟨?_, h⟩
      intro e he
      rcases List.mem_cons.mp he with he | he
      · subst he
        exact hk
      · exact Nat.lt_trans hk (h1 e he)
    · split
      · rename_i hk
        subst hk
        exact (sparseRising_cons _ _ _).mpr ⟨h1, h2⟩
      · rename_i h3 h4
        refine (sparseRising_cons _ _ _).mpr ⟨?_, ih h2⟩
        intro e he
        rcases mem_sparseInsert _ _ _ _ he with he | he
        · subst he
          show i < k
          omega
        · exact h1 e he

/-- An erasure keeps the canonical form. -/
theorem sparseRising_erase (k : Nat) (m : List (Nat × α)) (h : sparseRising m = true) :
    sparseRising (sparseErase k m) = true := by
  induction m with
  | nil => rfl
  | cons f m ih =>
    obtain ⟨i, w⟩ := f
    obtain ⟨h1, h2⟩ := (sparseRising_cons _ _ _).mp h
    unfold sparseErase
    split
    · exact ih h2
    · exact (sparseRising_cons _ _ _).mpr ⟨fun e he => h1 e (mem_sparseErase _ _ _ he).1, ih h2⟩

/-- In a canonical table an entry is in the list exactly when it is what its key reads as. -/
theorem sparseGet_eq_some (k : Nat) (v : α) (m : List (Nat × α)) (h : sparseRising m = true) :
    sparseGet k m = some v ↔ (k, v) ∈ m := by
  induction m with
  | nil => simp
  | cons f m ih =>
    obtain ⟨i, w⟩ := f
    obtain ⟨h1, h2⟩ := (sparseRising_cons _ _ _).mp h
    rw [sparseGet_cons]
    by_cases hk : i = k
    · subst hk
      simp only [if_pos, Option.some.injEq, List.mem_cons, Prod.mk.injEq, true_and]
      constructor
      · intro e
        exact .inl e.symm
      · intro e
        rcases e with e | e
        · exact e.symm
        · exact absurd (h1 _ e) (Nat.lt_irrefl _)
    · simp only [hk, if_false, ih h2, List.mem_cons, Prod.mk.injEq]
      constructor
      · exact .inr
      · intro e
        rcases e with ⟨e, -⟩ | e
        · exact absurd e.symm hk
        · exact e

end Sys2Proof.Machine
end

