-- ==== Sys2Proof/Laws/Counted.lean ====
section
/-! SUPPORT. The record of four like things, and what a counted event does to one counter. -/

namespace Sys2Proof.Four

variable {α : Type}

@[simp] theorem get_make (f : Fin 4 → α) (i : Fin 4) : (make f).get i = f i := by
  match i with
  | 0 => rfl
  | 1 => rfl
  | 2 => rfl
  | 3 => rfl

@[simp] theorem get_all (x : α) (i : Fin 4) : (all x).get i = x := by
  match i with
  | 0 => rfl
  | 1 => rfl
  | 2 => rfl
  | 3 => rfl

theorem get_set (q : Four α) (i j : Fin 4) (x : α) : (q.set i x).get j = if j = i then x else q.get j := by
  match i, j with
  | 0, 0 | 0, 1 | 0, 2 | 0, 3 | 1, 0 | 1, 1 | 1, 2 | 1, 3 => rfl
  | 2, 0 | 2, 1 | 2, 2 | 2, 3 | 3, 0 | 3, 1 | 3, 2 | 3, 3 => rfl

@[simp] theorem get_set_self (q : Four α) (i : Fin 4) (x : α) : (q.set i x).get i = x := by simp [get_set]

theorem get_set_other (q : Four α) (i j : Fin 4) (x : α) (h : j ≠ i) : (q.set i x).get j = q.get j := by
  simp [get_set, h]

@[simp] theorem set_get_self (q : Four α) (i : Fin 4) : q.set i (q.get i) = q := by
  match i with
  | 0 => rfl
  | 1 => rfl
  | 2 => rfl
  | 3 => rfl

/-- Two records with the same four things are one. -/
theorem ext_get (q r : Four α) (h : ∀ i, q.get i = r.get i) : q = r := by
  have h0 := h 0
  have h1 := h 1
  have h2 := h 2
  have h3 := h 3
  cases q
  cases r
  simp_all [get]

end Sys2Proof.Four

namespace Sys2Proof.Machine

@[simp] theorem raise_at {n : Nat} (v : Vector Count n) (i : Fin n) (k : Nat) :
    (raise v i k)[i.val] = v[i.val] + BitVec.ofNat 32 k := by
  simp [raise]

theorem raise_other {n : Nat} (v : Vector Count n) (i j : Fin n) (k : Nat) (h : i ≠ j) : (raise v i k)[j.val] = v[j.val] := by
  have : i.val ≠ j.val := fun e => h (Fin.ext e)
  simp [raise, this]

theorem PortCounter.position_ne {c d : PortCounter} (h : c ≠ d) : c.position ≠ d.position := by
  revert h
  cases c <;> cases d <;> simp [position]

theorem LevelCounter.position_ne {c d : LevelCounter} (h : c ≠ d) : c.position ≠ d.position := by
  revert h
  cases c <;> cases d <;> (try rename_i r; cases r) <;> (try rename_i q; cases q) <;> simp [position]

theorem TrunkCounter.position_ne {c d : TrunkCounter} (h : c ≠ d) : c.position ≠ d.position := by
  revert h
  cases c <;> cases d <;> (try rename_i r; cases r) <;> (try rename_i q; cases q) <;> simp [position]

theorem MgmtCounter.position_ne {c d : MgmtCounter} (h : c ≠ d) : c.position ≠ d.position := by
  revert h
  cases c <;> cases d <;> simp [position]

namespace CounterBank

variable (b : CounterBank)

/-! One counter after one counted event: the counter counted moves, every other stays. -/

@[simp] theorem portAt_plusPort (p q : Port) (c d : PortCounter) :
    (b.plusPort p c).portAt q d = if q = p ∧ d = c then b.portAt q d + 1#32 else b.portAt q d := by
  unfold portAt plusPort
  by_cases hq : q = p
  · subst hq
    by_cases hd : d = c
    · subst hd
      simp
    · simp [hd, raise_other _ _ _ _ (PortCounter.position_ne (Ne.symm hd))]
  · simp [hq, Four.get_set_other _ _ _ _ hq]

@[simp] theorem levelAt_plusLevel (l m : Level) (c d : LevelCounter) (n : Nat) :
    (b.plusLevel l c n).levelAt m d = if m = l ∧ d = c then b.levelAt m d + BitVec.ofNat 32 n else b.levelAt m d := by
  unfold levelAt plusLevel
  by_cases hm : m = l
  · subst hm
    by_cases hd : d = c
    · subst hd
      simp
    · simp [hd, raise_other _ _ _ _ (LevelCounter.position_ne (Ne.symm hd))]
  · simp [hm, Four.get_set_other _ _ _ _ hm]

@[simp] theorem trunkAt_plusTrunk (c d : TrunkCounter) :
    (b.plusTrunk c).trunkAt d = if d = c then b.trunkAt d + 1#32 else b.trunkAt d := by
  unfold trunkAt plusTrunk
  by_cases hd : d = c
  · subst hd
    simp
  · simp [hd, raise_other _ _ _ _ (TrunkCounter.position_ne (Ne.symm hd))]

@[simp] theorem mgmtAt_plusMgmt (c d : MgmtCounter) :
    (b.plusMgmt c).mgmtAt d = if d = c then b.mgmtAt d + 1#32 else b.mgmtAt d := by
  unfold mgmtAt plusMgmt
  by_cases hd : d = c
  · subst hd
    simp
  · simp [hd, raise_other _ _ _ _ (MgmtCounter.position_ne (Ne.symm hd))]

theorem plusPort_otherPort (p q : Port) (c : PortCounter) (h : q ≠ p) :
    (b.plusPort p c).port.get q = b.port.get q := by
  simp [plusPort, Four.get_set_other _ _ _ _ h]

theorem plusLevel_otherLevel (l m : Level) (c : LevelCounter) (n : Nat) (h : m ≠ l) :
    (b.plusLevel l c n).level.get m = b.level.get m := by
  simp [plusLevel, Four.get_set_other _ _ _ _ h]

/-! A counter depends on its group alone. -/

theorem portAt_congr {b₁ b₂ : CounterBank} (h : b₁.port = b₂.port) (p : Port) (c : PortCounter) :
    b₁.portAt p c = b₂.portAt p c := by
  simp [portAt, h]

theorem levelAt_congr {b₁ b₂ : CounterBank} (h : b₁.level = b₂.level) (l : Level) (c : LevelCounter) :
    b₁.levelAt l c = b₂.levelAt l c := by
  simp [levelAt, h]

theorem trunkAt_congr {b₁ b₂ : CounterBank} (h : b₁.trunk = b₂.trunk) (c : TrunkCounter) :
    b₁.trunkAt c = b₂.trunkAt c := by
  simp [trunkAt, h]

theorem mgmtAt_congr {b₁ b₂ : CounterBank} (h : b₁.mgmt = b₂.mgmt) (c : MgmtCounter) : b₁.mgmtAt c = b₂.mgmtAt c := by
  simp [mgmtAt, h]

@[simp] theorem levelAt_plusPort (p : Port) (c : PortCounter) (m : Level) (d : LevelCounter) :
    (b.plusPort p c).levelAt m d = b.levelAt m d := rfl
@[simp] theorem trunkAt_plusPort (p : Port) (c : PortCounter) (d : TrunkCounter) :
    (b.plusPort p c).trunkAt d = b.trunkAt d := rfl
@[simp] theorem mgmtAt_plusPort (p : Port) (c : PortCounter) (d : MgmtCounter) :
    (b.plusPort p c).mgmtAt d = b.mgmtAt d := rfl
@[simp] theorem portAt_plusLevel (l : Level) (c : LevelCounter) (n : Nat) (q : Port) (d : PortCounter) :
    (b.plusLevel l c n).portAt q d = b.portAt q d := rfl
@[simp] theorem trunkAt_plusLevel (l : Level) (c : LevelCounter) (n : Nat) (d : TrunkCounter) :
    (b.plusLevel l c n).trunkAt d = b.trunkAt d := rfl
@[simp] theorem mgmtAt_plusLevel (l : Level) (c : LevelCounter) (n : Nat) (d : MgmtCounter) :
    (b.plusLevel l c n).mgmtAt d = b.mgmtAt d := rfl
@[simp] theorem portAt_plusTrunk (c : TrunkCounter) (q : Port) (d : PortCounter) :
    (b.plusTrunk c).portAt q d = b.portAt q d := rfl
@[simp] theorem levelAt_plusTrunk (c : TrunkCounter) (m : Level) (d : LevelCounter) :
    (b.plusTrunk c).levelAt m d = b.levelAt m d := rfl
@[simp] theorem mgmtAt_plusTrunk (c : TrunkCounter) (d : MgmtCounter) : (b.plusTrunk c).mgmtAt d = b.mgmtAt d := rfl
@[simp] theorem portAt_plusMgmt (c : MgmtCounter) (q : Port) (d : PortCounter) :
    (b.plusMgmt c).portAt q d = b.portAt q d := rfl
@[simp] theorem levelAt_plusMgmt (c : MgmtCounter) (m : Level) (d : LevelCounter) :
    (b.plusMgmt c).levelAt m d = b.levelAt m d := rfl
@[simp] theorem trunkAt_plusMgmt (c : MgmtCounter) (d : TrunkCounter) : (b.plusMgmt c).trunkAt d = b.trunkAt d := rfl

end CounterBank

/-- A hit counter set to a value reads as it, and the others as before (R102). -/
theorem CounterBank.hit_setHit (b : CounterBank) (i j : Nat) (c : Count) :
    (b.setHit i c).hit j = if j = i then c else b.hit j := by
  unfold CounterBank.setHit CounterBank.hit
  dsimp only
  split
  · rename_i h
    rw [sparseGet_erase]
    split <;> simp_all
  · rw [sparseGet_insert]
    split <;> simp

namespace State

variable (s : State)

/-! A NOTICE is counted as sent or as dropped, and nothing else of the management group moves. -/

theorem sendNotice_mgmt (r : EventRecord) :
    (s.sendNotice r).counters.mgmt = (s.counters.plusMgmt .noticesSent).mgmt ∨
      (s.sendNotice r).counters.mgmt = (s.counters.plusMgmt .noticesDropped).mgmt := by
  unfold sendNotice placeReserve
  split
  · simp
  · rename_i h
    split at h
    · simp at h
    · simp only [Option.some.injEq, Prod.mk.injEq] at h
      obtain ⟨-, rfl⟩ := h
      simp

theorem noticeCheck_mgmtCounter (r : EventRecord) (c : MgmtCounter) (h1 : c ≠ .noticesSent) (h2 : c ≠ .noticesDropped) :
    (s.noticeCheck r).counters.mgmtAt c = s.counters.mgmtAt c := by
  unfold noticeCheck
  split
  · rcases s.sendNotice_mgmt r with e | e
    · rw [CounterBank.mgmtAt_congr e, CounterBank.mgmtAt_plusMgmt, if_neg h1]
    · rw [CounterBank.mgmtAt_congr e, CounterBank.mgmtAt_plusMgmt, if_neg h2]
  · rfl

@[simp] theorem offerEvent_at (k : EventKind) (b : Subject) (n : Option Half) (d : Half) :
    (∀ p c, (s.offerEvent k b n d).counters.portAt p c = s.counters.portAt p c) ∧
      (∀ l c, (s.offerEvent k b n d).counters.levelAt l c = s.counters.levelAt l c) ∧
      ∀ c, (s.offerEvent k b n d).counters.trunkAt c = s.counters.trunkAt c :=
  ⟨fun _ _ => CounterBank.portAt_congr (by simp) _ _, fun _ _ => CounterBank.levelAt_congr (by simp) _ _,
    fun _ => CounterBank.trunkAt_congr (by simp) _⟩

theorem offerEvent_mgmtCounter (k : EventKind) (b : Subject) (n : Option Half) (d : Half) (c : MgmtCounter)
    (h1 : c ≠ .noticesSent) (h2 : c ≠ .noticesDropped) :
    (s.offerEvent k b n d).counters.mgmtAt c = s.counters.mgmtAt c := by
  unfold offerEvent acceptRecord
  repeat' split
  · rw [noticeCheck_mgmtCounter _ _ _ h1 h2]
    simp
  · simp
  · rw [noticeCheck_mgmtCounter _ _ _ h1 h2]
    simp

end State

end Sys2Proof.Machine
end

