-- ==== Sys2Proof/Laws/Down.lean ====
section
/-! SUPPORT. What the parts of a DOWN event do inside the blocks they touch, and the DOWN event as a whole. -/

/-! ### The Trunk Transmitter's slots (R11, R12) -/

namespace Sys2Proof.Machine.TrunkTx

variable (t : TrunkTx) (g : Segment)

@[simp] theorem start_inFlight : (t.start g).inFlight = some g := rfl
@[simp] theorem start_latch : (t.start g).latch = t.latch := rfl
@[simp] theorem start_cutOff : (t.start g).cutOff = false := rfl
@[simp] theorem abandon_inFlight : t.abandon.inFlight = none := rfl
@[simp] theorem abandon_latch : t.abandon.latch = none := rfl
@[simp] theorem abandon_lastHello : t.abandon.lastHello = t.lastHello := rfl
@[simp] theorem abandon_cutOff : t.abandon.cutOff = (t.cutOff || t.inFlight.isSome) := rfl
@[simp] theorem restart_inFlight : t.restart.inFlight = none := rfl
@[simp] theorem restart_latch : t.restart.latch = none := rfl
@[simp] theorem restart_lastHello : t.restart.lastHello = none := rfl
@[simp] theorem restart_cutOff : t.restart.cutOff = (t.cutOff || t.inFlight.isSome) := rfl
@[simp] theorem delimiterSent_inFlight : t.delimiterSent.inFlight = t.inFlight := rfl
@[simp] theorem delimiterSent_latch : t.delimiterSent.latch = t.latch := rfl
@[simp] theorem delimiterSent_lastHello : t.delimiterSent.lastHello = t.lastHello := rfl
@[simp] theorem delimiterSent_cutOff : t.delimiterSent.cutOff = false := rfl

end Sys2Proof.Machine.TrunkTx

namespace Sys2Proof.Machine.State

variable (s : State)

/-! ### Aborts -/

@[simp] theorem recordAbort_inside (l : Level) (h : Half) (r : AbortReason) :
    (s.recordAbort l h r).agent.mode = s.agent.mode ∧ (s.recordAbort l h r).agent.requests = s.agent.requests ∧
      (s.recordAbort l h r).agent.peers = s.agent.peers ∧
      (s.recordAbort l h r).agent.nextLocalTag = s.agent.nextLocalTag ∧
      (s.recordAbort l h r).counters.port = s.counters.port ∧
      (s.recordAbort l h r).counters.trunk = s.counters.trunk ∧
      (s.recordAbort l h r).counters.hits = s.counters.hits := by
  simp [recordAbort]

@[simp] theorem abortEntry_inside (r : AbortReason) (e : RxEntry) :
    (abortEntry r s e).agent.mode = s.agent.mode ∧ (abortEntry r s e).agent.requests = s.agent.requests ∧
      (abortEntry r s e).agent.peers = s.agent.peers ∧
      (abortEntry r s e).agent.nextLocalTag = s.agent.nextLocalTag ∧
      (abortEntry r s e).counters.port = s.counters.port ∧ (abortEntry r s e).counters.trunk = s.counters.trunk ∧
      (abortEntry r s e).counters.hits = s.counters.hits := by
  simp [abortEntry]

@[simp] theorem abortEntries_inside (r : AbortReason) (es : List RxEntry) :
    (es.foldl (abortEntry r) s).agent.mode = s.agent.mode ∧
      (es.foldl (abortEntry r) s).agent.requests = s.agent.requests ∧
      (es.foldl (abortEntry r) s).agent.peers = s.agent.peers ∧
      (es.foldl (abortEntry r) s).agent.nextLocalTag = s.agent.nextLocalTag ∧
      (es.foldl (abortEntry r) s).counters.port = s.counters.port ∧
      (es.foldl (abortEntry r) s).counters.trunk = s.counters.trunk ∧
      (es.foldl (abortEntry r) s).counters.hits = s.counters.hits := by
  induction es generalizing s with
  | nil => simp
  | cons e es ih => simpa using ih (abortEntry r s e)

/-- A record that is held and is no loss record stays while entries are aborted. -/
theorem abortEntries_keeps (r : AbortReason) (es : List RxEntry) (i : Nat) (x : EventRecord)
    (h : s.events.records[i]? = some x) (hx : x.kind ≠ .eventsLost) :
    (es.foldl (abortEntry r) s).events.records[i]? = some x := by
  induction es generalizing s with
  | nil => simpa using h
  | cons e es ih =>
    refine ih (abortEntry r s e) ?_
    unfold abortEntry recordAbort
    exact offerEvent_keeps _ _ _ _ _ i x (by simpa using h) hx

/-- After every named entry is aborted the stack holds the others. -/
@[simp] theorem abortWhere_stack (named : RxEntry → Bool) (r : AbortReason) :
    (s.abortWhere named r).reasm = { s.reasm with stack := s.reasm.stack.filter fun e => !named e } := by
  simp [abortWhere, setRxStack]

/-! ### Settling the transmit side -/

@[simp] theorem settleLevel_stack (before : State) (l : Level) :
    (settleLevel before s l).sched.stack = s.sched.stack ∧ (settleLevel before s l).sched.nextTag = s.sched.nextTag ∧
      (settleLevel before s l).sched.nextSeq = s.sched.nextSeq := by
  simp [settleLevel, Scheduler.setQueue]

@[simp] theorem settleLevel_counters (before : State) (l : Level) :
    (settleLevel before s l).counters =
      (s.counters.plusLevel l .linkLossRetained (before.returnedTo l).length).plusLevel l .linkLossDiscarded
        (before.discardedAt l).length := by
  simp [settleLevel]

@[simp] theorem txTeardown_inside :
    s.txTeardown.agent.mode = s.agent.mode ∧ s.txTeardown.agent.requests = s.agent.requests ∧
      s.txTeardown.agent.peers = s.agent.peers ∧ s.txTeardown.agent.nextLocalTag = s.agent.nextLocalTag ∧
      s.txTeardown.counters.port = s.counters.port ∧ s.txTeardown.counters.trunk = s.counters.trunk ∧
      s.txTeardown.counters.hits = s.counters.hits ∧ s.txTeardown.sched.stack = [] ∧
      s.txTeardown.sched.nextTag = s.sched.nextTag ∧ s.txTeardown.sched.nextSeq = s.sched.nextSeq ∧
      s.txTeardown.trunkTx = s.trunkTx.abandon := by
  unfold txTeardown fourIndices
  dsimp only [List.foldl]
  split <;> simp

/-- The line once the slots are abandoned: the end delimiter of a segment cut off, or idle fill (R12). -/
theorem trunkTransmitLine_abandoned (t : State) (k : TrunkTx) (h : t.running) (e : t.trunkTx = k.abandon) :
    t.trunkTransmitLine = if k.inFlight.isSome = true ∨ k.cutOff = true then .endDelimiter else .idleFill := by
  unfold State.running at h
  cases hc : k.cutOff <;> cases hi : k.inFlight <;>
    simp [trunkTransmitLine, h, e, hc, hi]

theorem txTeardown_keeps (i : Nat) (x : EventRecord) (h : s.events.records[i]? = some x) (hx : x.kind ≠ .eventsLost) :
    s.txTeardown.events.records[i]? = some x := by
  unfold txTeardown fourIndices
  dsimp only [List.foldl]
  split
  · simpa using h
  · exact offerEvent_keeps _ _ _ _ _ i x (by simpa using h) hx

/-! ### Replies to pending peers -/

@[simp] theorem localReply_inside (p : Port) (h : Half) (bs : List Byte) :
    (s.localReply p h bs).1.counters.port = s.counters.port ∧
      (s.localReply p h bs).1.counters.level = s.counters.level ∧
      (s.localReply p h bs).1.counters.trunk = s.counters.trunk ∧
      (s.localReply p h bs).1.counters.hits = s.counters.hits ∧
      (s.localReply p h bs).1.rxPool.levelPart = s.rxPool.levelPart ∧
      (s.localReply p h bs).1.rxPool.exhaustionReported = s.rxPool.exhaustionReported := by
  unfold localReply placeReserve
  split
  · simp
  · rename_i h
    split at h
    · simp at h
    · rename_i n q e
      obtain ⟨h1, h2⟩ := claimReserve_levelPart _ _ _ _ _ e
      simp only [Option.some.injEq, Prod.mk.injEq] at h
      obtain ⟨-, rfl⟩ := h
      simp [h1, h2]

@[simp] theorem answerPeers_inside (a : Status) (es : List PeerEntry) :
    (es.foldl (answerPeer a) s).counters.port = s.counters.port ∧
      (es.foldl (answerPeer a) s).counters.level = s.counters.level ∧
      (es.foldl (answerPeer a) s).counters.trunk = s.counters.trunk ∧
      (es.foldl (answerPeer a) s).counters.hits = s.counters.hits ∧
      (es.foldl (answerPeer a) s).rxPool.levelPart = s.rxPool.levelPart ∧
      (es.foldl (answerPeer a) s).rxPool.exhaustionReported = s.rxPool.exhaustionReported := by
  induction es generalizing s with
  | nil => simp
  | cons e es ih => simpa [answerPeer] using ih (answerPeer a s e)

@[simp] theorem answerPeersDown_agent :
    s.answerPeersDown.agent = { s.agent with peers := [] } ∧ s.answerPeersDown.counters.port = s.counters.port ∧
      s.answerPeersDown.counters.level = s.counters.level ∧ s.answerPeersDown.counters.trunk = s.counters.trunk ∧
      s.answerPeersDown.counters.hits = s.counters.hits := by
  simp [answerPeersDown]

/-! ### The DOWN event -/

/-- The state in which the receive and transmit sides are settled: the link is DOWN, the pending peers are answered and
the LINK_DOWN record is offered. -/
def downAnnounced (cause : LinkCause) : State :=
  (((s.mapLink fun _ => s.downController cause).countTrunk (.linkDowns cause)).answerPeersDown).offerEvent .linkDown .none
    none (BitVec.ofNat 16 cause.code)

theorem linkDown_eq (cause : LinkCause) (h : s.link.state ≠ .down) :
    s.linkDown cause = (s.downAnnounced cause).rxTeardown.txTeardown := by
  simp [linkDown, h, downAnnounced]

/-- Everything a DOWN event does but the settling of the Level Queues and pools (R79, R80). -/
theorem linkDown_spec (cause : LinkCause) (h : s.link.state ≠ .down) :
    (s.linkDown cause).link = s.downController cause ∧ settledDown s (s.linkDown cause) cause ∧
      (s.linkDown cause).agent.requests = s.agent.requests ∧
      (s.linkDown cause).agent.nextLocalTag = s.agent.nextLocalTag ∧
      (s.linkDown cause).agent.mode = s.agent.mode ∧ (s.linkDown cause).sched.nextTag = s.sched.nextTag ∧
      (s.linkDown cause).sched.nextSeq = s.sched.nextSeq ∧
      (s.linkDown cause).counters.trunk = (s.counters.plusTrunk (.linkDowns cause)).trunk ∧
      (s.linkDown cause).counters.port = s.counters.port := by
  rw [linkDown_eq s cause h]
  refine ⟨?_, ?_, ?_⟩
  · simp [downAnnounced]
  · refine ⟨?_, ?_, ?_, ?_, ?_, ?_, ?_, ?_, ?_⟩
    · simp
    · simp
    · simp
    · intro hr
      exact trunkTransmitLine_abandoned _ _ hr (by simp [downAnnounced])
    · simp [rxTeardown]
    · simp [rxTeardown]
    · simp [rxTeardown, abortWhere, downAnnounced]
    · have e : (s.downAnnounced cause).rxTeardown.txTeardown.counters.trunk =
          (s.counters.plusTrunk (.linkDowns cause)).trunk := by
        simp [rxTeardown, abortWhere, downAnnounced]
      simp [trunkCounted, CounterBank.trunkAt_congr e]
    · intro hl
      refine txTeardown_keeps _ _ _ ?_ (by simp)
      unfold rxTeardown abortWhere
      refine abortEntries_keeps _ _ _ _ _ ?_ (by simp)
      have := recordAccepted_offerEvent
        ((s.mapLink fun _ => s.downController cause).countTrunk (.linkDowns cause)).answerPeersDown .linkDown .none none
        (BitVec.ofNat 16 cause.code) (by simpa using hl)
      obtain ⟨-, h2⟩ := this
      simp only [downAnnounced, setRxStack_frame]
      rw [h2]
      simp
  · simp [rxTeardown, abortWhere, downAnnounced]

/-- A DOWN event in the words of the statements (R79, R80). -/
theorem linkDown_kept (s : State) (cause : LinkCause) (h : s.link.state ≠ .down) :
    s.link.wentDown s.now cause (s.linkDown cause).link ∧ settledDown s (s.linkDown cause) cause ∧
      keptThroughDown s (s.linkDown cause) := by
  obtain ⟨hk, hs, hr, ht, hm, hg, hq, -⟩ := s.linkDown_spec cause h
  refine ⟨?_, hs, ?_, hr, ht, hm, hg, hq⟩
  · rw [hk]
    simp [LinkController.wentDown, downController, holdOffFromNow, timeAfter, Config.holdOffTime]
  · intro b hb
    cases b <;> first | (exact absurd (by decide) hb) | (simp [Block.same])

/-- What each LINK CONTROL action does, in the words of the statements (R72). -/
theorem linkAction_controlled (s : State) (a : LinkAction) : linkControlled s (s.linkAction a) a := by
  cases a with
  | drop =>
    refine ⟨fun h => ?_, fun h => ?_⟩
    · show s.linkDrop = _
      rw [linkDrop, if_pos h]
      by_cases c : s.link.held = false ∧ s.link.signal = true
      · rw [if_pos c]
        cases d : s.link.holdOff with
        | none => simp [mapLink, d]
        | some x => simp [mapLink, d, c, holdOffFromNow, timeAfter, Config.holdOffTime]
      · have c' : ¬(s.link.held = false ∧ s.link.signal = true ∧ s.link.holdOff.isSome = true) :=
          fun x => c ⟨x.1, x.2.1⟩
        rw [if_neg c, if_neg c']
    · simpa [linkAction, linkDrop, h] using s.linkDown_kept .admin h
  | hold =>
    refine ⟨fun h => ?_, fun h => ?_⟩
    · show s.linkHold = _
      rw [linkHold, if_pos h]
      rfl
    · obtain ⟨hk, hs, ho, hkept⟩ := (s.mapLink fun k => { k with held := true }).linkDown_kept .admin h
      have e : s.linkAction .hold = (s.mapLink fun k => { k with held := true }).linkDown .admin := by
        show s.linkHold = _
        rw [linkHold, if_neg h]
      rw [e]
      refine ⟨hk, ?_, hs, fun b hb => ?_, hkept⟩
      · rw [hk]; simp
      · have := ho b hb
        cases b <;> first | (exact absurd (by decide) hb) | exact this
  | release =>
    show s.linkRelease = _
    unfold linkRelease
    by_cases c : s.link.state = .down ∧ s.link.held = true
    · rw [if_pos c, if_pos c]
      cases g : s.link.signal <;>
        simp [startHoldOff, mapLink, g, holdOffFromNow, timeAfter, Config.holdOffTime, now]
    · rw [if_neg c, if_neg c]

end Sys2Proof.Machine.State
end

