-- ==== Sys2Proof/Laws/Selection.lean ====
section
/-! SUPPORT. What a selection, a credit report and an admission leave inside the Link Controller and the counters: only
the last-advertised limits, the advance times and deadlines and CONTROL due can move, and only level counters. -/

namespace Sys2Proof.Machine.State

variable (s : State)

@[simp] theorem selectControl_inside :
    (s.selectControl).link.state = s.link.state ∧ (s.selectControl).link.lastCause = s.link.lastCause ∧
      (s.selectControl).link.held = s.link.held ∧ (s.selectControl).link.signal = s.link.signal ∧
      (s.selectControl).link.holdOff = s.link.holdOff ∧ (s.selectControl).link.heard = s.link.heard ∧
      (s.selectControl).link.helloDeadline = s.link.helloDeadline ∧
      (s.selectControl).link.generation = s.link.generation ∧
      (s.selectControl).link.errorBudget = s.link.errorBudget ∧ (s.selectControl).link.goodRun = s.link.goodRun ∧
      (s.selectControl).link.silenceDeadline = s.link.silenceDeadline ∧
      (s.selectControl).link.keepaliveDeadline = s.link.keepaliveDeadline ∧
      (s.selectControl).link.txCredit = s.link.txCredit ∧ (s.selectControl).link.allotment = s.link.allotment := by
  simp [selectControl]

@[simp] theorem selectFirst_inside (l : Level) :
    (s.selectFirst l).counters.port = s.counters.port ∧ (s.selectFirst l).counters.trunk = s.counters.trunk ∧
      (s.selectFirst l).counters.mgmt = s.counters.mgmt ∧ (s.selectFirst l).counters.hits = s.counters.hits := by
  unfold selectFirst selectWhole selectStart
  dsimp only
  repeat' split
  all_goals simp

@[simp] theorem select_inside :
    (s.select).link.state = s.link.state ∧ (s.select).link.lastCause = s.link.lastCause ∧
      (s.select).link.held = s.link.held ∧ (s.select).link.signal = s.link.signal ∧
      (s.select).link.holdOff = s.link.holdOff ∧ (s.select).link.heard = s.link.heard ∧
      (s.select).link.helloDeadline = s.link.helloDeadline ∧ (s.select).link.generation = s.link.generation ∧
      (s.select).link.errorBudget = s.link.errorBudget ∧ (s.select).link.goodRun = s.link.goodRun ∧
      (s.select).link.silenceDeadline = s.link.silenceDeadline ∧
      (s.select).link.keepaliveDeadline = s.link.keepaliveDeadline ∧ (s.select).link.txCredit = s.link.txCredit ∧
      (s.select).link.allotment = s.link.allotment ∧ (s.select).counters.port = s.counters.port ∧
      (s.select).counters.trunk = s.counters.trunk ∧ (s.select).counters.mgmt = s.counters.mgmt ∧
      (s.select).counters.hits = s.counters.hits := by
  unfold select
  repeat' split
  all_goals simp

@[simp] theorem selectIfFree_inside :
    (s.selectIfFree).link.state = s.link.state ∧ (s.selectIfFree).link.lastCause = s.link.lastCause ∧
      (s.selectIfFree).link.held = s.link.held ∧ (s.selectIfFree).link.signal = s.link.signal ∧
      (s.selectIfFree).link.holdOff = s.link.holdOff ∧ (s.selectIfFree).link.heard = s.link.heard ∧
      (s.selectIfFree).link.helloDeadline = s.link.helloDeadline ∧
      (s.selectIfFree).link.generation = s.link.generation ∧ (s.selectIfFree).link.errorBudget = s.link.errorBudget ∧
      (s.selectIfFree).link.goodRun = s.link.goodRun ∧
      (s.selectIfFree).link.silenceDeadline = s.link.silenceDeadline ∧
      (s.selectIfFree).link.keepaliveDeadline = s.link.keepaliveDeadline ∧
      (s.selectIfFree).link.txCredit = s.link.txCredit ∧ (s.selectIfFree).link.allotment = s.link.allotment ∧
      (s.selectIfFree).counters.port = s.counters.port ∧ (s.selectIfFree).counters.trunk = s.counters.trunk ∧
      (s.selectIfFree).counters.mgmt = s.counters.mgmt ∧ (s.selectIfFree).counters.hits = s.counters.hits := by
  unfold selectIfFree
  split <;> simp

@[simp] theorem selectionTrigger_inside :
    (s.selectionTrigger).link.state = s.link.state ∧ (s.selectionTrigger).link.lastCause = s.link.lastCause ∧
      (s.selectionTrigger).link.held = s.link.held ∧ (s.selectionTrigger).link.signal = s.link.signal ∧
      (s.selectionTrigger).link.holdOff = s.link.holdOff ∧ (s.selectionTrigger).link.heard = s.link.heard ∧
      (s.selectionTrigger).link.helloDeadline = s.link.helloDeadline ∧
      (s.selectionTrigger).link.generation = s.link.generation ∧
      (s.selectionTrigger).link.errorBudget = s.link.errorBudget ∧
      (s.selectionTrigger).link.goodRun = s.link.goodRun ∧
      (s.selectionTrigger).link.silenceDeadline = s.link.silenceDeadline ∧
      (s.selectionTrigger).link.keepaliveDeadline = s.link.keepaliveDeadline ∧
      (s.selectionTrigger).link.txCredit = s.link.txCredit ∧ (s.selectionTrigger).link.allotment = s.link.allotment ∧
      (s.selectionTrigger).counters.port = s.counters.port ∧ (s.selectionTrigger).counters.trunk = s.counters.trunk ∧
      (s.selectionTrigger).counters.mgmt = s.counters.mgmt ∧ (s.selectionTrigger).counters.hits = s.counters.hits := by
  unfold selectionTrigger
  split <;> simp

@[simp] theorem triggerIfDue_inside (before : State) :
    (triggerIfDue before s).link.state = s.link.state ∧ (triggerIfDue before s).link.lastCause = s.link.lastCause ∧
      (triggerIfDue before s).link.held = s.link.held ∧ (triggerIfDue before s).link.signal = s.link.signal ∧
      (triggerIfDue before s).link.holdOff = s.link.holdOff ∧ (triggerIfDue before s).link.heard = s.link.heard ∧
      (triggerIfDue before s).link.helloDeadline = s.link.helloDeadline ∧
      (triggerIfDue before s).link.generation = s.link.generation ∧
      (triggerIfDue before s).link.errorBudget = s.link.errorBudget ∧
      (triggerIfDue before s).link.goodRun = s.link.goodRun ∧
      (triggerIfDue before s).link.silenceDeadline = s.link.silenceDeadline ∧
      (triggerIfDue before s).link.keepaliveDeadline = s.link.keepaliveDeadline ∧
      (triggerIfDue before s).link.txCredit = s.link.txCredit ∧
      (triggerIfDue before s).link.allotment = s.link.allotment ∧
      (triggerIfDue before s).counters.port = s.counters.port ∧
      (triggerIfDue before s).counters.trunk = s.counters.trunk ∧
      (triggerIfDue before s).counters.mgmt = s.counters.mgmt ∧
      (triggerIfDue before s).counters.hits = s.counters.hits := by
  unfold triggerIfDue
  split <;> simp

theorem compareLimit_inside (k : LinkController) (now : Time) (limit : Half) (l : Level) :
    k.compareLimit now limit l =
      { k with
        advanceTime := (k.compareLimit now limit l).advanceTime
        advanceDeadline := (k.compareLimit now limit l).advanceDeadline
        controlDue := (k.compareLimit now limit l).controlDue } := by
  unfold LinkController.compareLimit
  repeat' split
  all_goals rfl

@[simp] theorem reportLevel_inside (l : Level) :
    (s.reportLevel l).link.state = s.link.state ∧ (s.reportLevel l).link.lastCause = s.link.lastCause ∧
      (s.reportLevel l).link.held = s.link.held ∧ (s.reportLevel l).link.signal = s.link.signal ∧
      (s.reportLevel l).link.holdOff = s.link.holdOff ∧ (s.reportLevel l).link.heard = s.link.heard ∧
      (s.reportLevel l).link.helloDeadline = s.link.helloDeadline ∧
      (s.reportLevel l).link.generation = s.link.generation ∧
      (s.reportLevel l).link.errorBudget = s.link.errorBudget ∧ (s.reportLevel l).link.goodRun = s.link.goodRun ∧
      (s.reportLevel l).link.silenceDeadline = s.link.silenceDeadline ∧
      (s.reportLevel l).link.keepaliveDeadline = s.link.keepaliveDeadline ∧
      (s.reportLevel l).link.txCredit = s.link.txCredit ∧ (s.reportLevel l).link.allotment = s.link.allotment ∧
      (s.reportLevel l).link.lastAdvertised = s.link.lastAdvertised := by
  unfold reportLevel
  split
  · simp only [mapLink_link]
    rw [compareLimit_inside]
    simp
  · simp

/-- The good run is 0 after an entry to UP at a HELLO (R74, R76). -/
@[simp] theorem enterUpAtHello_inside :
    (s.enterUpAtHello).link.state = .up ∧ (s.enterUpAtHello).link.generation = s.link.generation + 1#16 ∧
      (s.enterUpAtHello).link.goodRun = 0 ∧ (s.enterUpAtHello).link.errorBudget = 0 ∧
      (s.enterUpAtHello).link.txCredit = s.link.txCredit := by
  simp [enterUpAtHello, enterUp, fourIndices, upController]

@[simp] theorem reportMoved_inside (before : State) :
    (reportMoved before s).link.state = s.link.state ∧ (reportMoved before s).link.lastCause = s.link.lastCause ∧
      (reportMoved before s).link.held = s.link.held ∧ (reportMoved before s).link.signal = s.link.signal ∧
      (reportMoved before s).link.holdOff = s.link.holdOff ∧ (reportMoved before s).link.heard = s.link.heard ∧
      (reportMoved before s).link.helloDeadline = s.link.helloDeadline ∧
      (reportMoved before s).link.generation = s.link.generation ∧
      (reportMoved before s).link.errorBudget = s.link.errorBudget ∧
      (reportMoved before s).link.goodRun = s.link.goodRun ∧
      (reportMoved before s).link.silenceDeadline = s.link.silenceDeadline ∧
      (reportMoved before s).link.keepaliveDeadline = s.link.keepaliveDeadline ∧
      (reportMoved before s).link.txCredit = s.link.txCredit ∧
      (reportMoved before s).link.allotment = s.link.allotment ∧
      (reportMoved before s).link.lastAdvertised = s.link.lastAdvertised := by
  unfold reportMoved fourIndices
  simp only [List.foldl]
  repeat' split
  all_goals simp

@[simp] theorem creditReport_inside (before : State) :
    (creditReport before s).link.state = s.link.state ∧ (creditReport before s).link.lastCause = s.link.lastCause ∧
      (creditReport before s).link.held = s.link.held ∧ (creditReport before s).link.signal = s.link.signal ∧
      (creditReport before s).link.holdOff = s.link.holdOff ∧ (creditReport before s).link.heard = s.link.heard ∧
      (creditReport before s).link.helloDeadline = s.link.helloDeadline ∧
      (creditReport before s).link.generation = s.link.generation ∧
      (creditReport before s).link.errorBudget = s.link.errorBudget ∧
      (creditReport before s).link.goodRun = s.link.goodRun ∧
      (creditReport before s).link.silenceDeadline = s.link.silenceDeadline ∧
      (creditReport before s).link.keepaliveDeadline = s.link.keepaliveDeadline ∧
      (creditReport before s).link.txCredit = s.link.txCredit ∧
      (creditReport before s).link.allotment = s.link.allotment ∧
      (creditReport before s).counters.port = s.counters.port ∧
      (creditReport before s).counters.trunk = s.counters.trunk ∧
      (creditReport before s).counters.mgmt = s.counters.mgmt ∧
      (creditReport before s).counters.hits = s.counters.hits := by
  simp [creditReport]

@[simp] theorem joinQueue_inside (d : TxDescriptor) :
    (s.joinQueue d).counters.port = s.counters.port ∧ (s.joinQueue d).counters.trunk = s.counters.trunk ∧
      (s.joinQueue d).counters.mgmt = s.counters.mgmt ∧ (s.joinQueue d).counters.hits = s.counters.hits := by
  simp [joinQueue]

@[simp] theorem admission_inside (d : TxDescriptor) :
    (s.admission d).link.state = s.link.state ∧ (s.admission d).link.lastCause = s.link.lastCause ∧
      (s.admission d).link.held = s.link.held ∧ (s.admission d).link.signal = s.link.signal ∧
      (s.admission d).link.holdOff = s.link.holdOff ∧ (s.admission d).link.heard = s.link.heard ∧
      (s.admission d).link.helloDeadline = s.link.helloDeadline ∧
      (s.admission d).link.generation = s.link.generation ∧ (s.admission d).link.errorBudget = s.link.errorBudget ∧
      (s.admission d).link.goodRun = s.link.goodRun ∧ (s.admission d).link.silenceDeadline = s.link.silenceDeadline ∧
      (s.admission d).link.keepaliveDeadline = s.link.keepaliveDeadline ∧
      (s.admission d).link.txCredit = s.link.txCredit ∧ (s.admission d).link.allotment = s.link.allotment ∧
      (s.admission d).counters.port = s.counters.port ∧ (s.admission d).counters.trunk = s.counters.trunk ∧
      (s.admission d).counters.mgmt = s.counters.mgmt ∧ (s.admission d).counters.hits = s.counters.hits := by
  simp [admission]

@[simp] theorem selectionTrigger_at :
    (∀ p c, s.selectionTrigger.counters.portAt p c = s.counters.portAt p c) ∧
      (∀ c, s.selectionTrigger.counters.trunkAt c = s.counters.trunkAt c) ∧
      ∀ c, s.selectionTrigger.counters.mgmtAt c = s.counters.mgmtAt c :=
  ⟨fun _ _ => CounterBank.portAt_congr (by simp) _ _, fun _ => CounterBank.trunkAt_congr (by simp) _,
    fun _ => CounterBank.mgmtAt_congr (by simp) _⟩

@[simp] theorem creditReport_at (before : State) :
    (∀ p c, (creditReport before s).counters.portAt p c = s.counters.portAt p c) ∧
      (∀ c, (creditReport before s).counters.trunkAt c = s.counters.trunkAt c) ∧
      ∀ c, (creditReport before s).counters.mgmtAt c = s.counters.mgmtAt c :=
  ⟨fun _ _ => CounterBank.portAt_congr (by simp) _ _, fun _ => CounterBank.trunkAt_congr (by simp) _,
    fun _ => CounterBank.mgmtAt_congr (by simp) _⟩

/-! A selection counts preemptions and WHOLE insertions at a level, and nothing else. -/

theorem selectFirst_counters (l : Level) :
    (s.selectFirst l).counters = s.counters ∨
      (s.selectFirst l).counters = s.counters.plusLevel l .preemptions 1 ∨
      (s.selectFirst l).counters = s.counters.plusLevel l .wholeInsertions 1 := by
  unfold selectFirst selectWhole selectStart
  dsimp only
  repeat' split
  all_goals simp

theorem select_counters :
    s.select.counters = s.counters ∨
      ∃ m, s.select.counters = s.counters.plusLevel m .preemptions 1 ∨
        s.select.counters = s.counters.plusLevel m .wholeInsertions 1 := by
  unfold select
  repeat' split
  · simp
  · rename_i l _
    rcases s.selectFirst_counters l with e | e
    · exact .inl e
    · exact .inr ⟨l, e⟩
  all_goals simp

theorem select_levelCounter (l : Level) (c : LevelCounter) (h3 : c ≠ .preemptions) (h4 : c ≠ .wholeInsertions) :
    s.select.counters.levelAt l c = s.counters.levelAt l c := by
  rcases s.select_counters with e | ⟨m, e | e⟩ <;> rw [e] <;> simp [h3, h4]

theorem selectionTrigger_levelCounter (l : Level) (c : LevelCounter) (h3 : c ≠ .preemptions)
    (h4 : c ≠ .wholeInsertions) : s.selectionTrigger.counters.levelAt l c = s.counters.levelAt l c := by
  have e : ∀ t : State, t.selectIfFree.counters.levelAt l c = t.counters.levelAt l c := by
    intro t
    unfold selectIfFree
    split
    · exact select_levelCounter t l c h3 h4
    · rfl
  unfold selectionTrigger
  split
  · rw [e, e]
  · rw [e]

theorem creditReport_levelCounter (before : State) (l : Level) (c : LevelCounter) (h3 : c ≠ .preemptions)
    (h4 : c ≠ .wholeInsertions) : (creditReport before s).counters.levelAt l c = s.counters.levelAt l c := by
  unfold creditReport triggerIfDue
  split
  · rw [selectionTrigger_levelCounter _ l c h3 h4]
    simp
  · simp

/-- A selection leaves the transmit side as it was while the link is not UP or the latch is full (R17). -/
theorem selectionTrigger_none (h : s.link.state ≠ .up ∨ s.trunkTx.latch ≠ none) : s.selectionTrigger = s := by
  have e : s.selectIfFree = s := by
    unfold selectIfFree
    split
    · rename_i c
      rcases h with h | h
      · exact absurd c.1 h
      · exact absurd c.2 h
    · rfl
  unfold selectionTrigger
  split <;> simp [e]

/-- A state with the Agent and the management counters replaced: a selection neither reads nor writes them (R18). -/
def withMgmt (a : Agent) (m : Vector Count 8) : State :=
  { s with agent := a, counters := { s.counters with mgmt := m } }

theorem selectFirst_withMgmt (a : Agent) (m : Vector Count 8) (l : Level) :
    (s.withMgmt a m).selectFirst l = (s.selectFirst l).withMgmt a m := by
  have hs : (s.withMgmt a m).sched = s.sched := rfl
  unfold selectFirst
  rw [hs]
  cases s.sched.queues.get l with
  | nil => rfl
  | cons f rest =>
    simp only [selectWhole, selectStart, hs]
    split <;> split <;> rfl

theorem select_withMgmt (a : Agent) (m : Vector Count 8) :
    (s.withMgmt a m).select = s.select.withMgmt a m := by
  have hs : (s.withMgmt a m).sched = s.sched := rfl
  have hl : (s.withMgmt a m).startLevel = s.startLevel := rfl
  have hd : (s.withMgmt a m).link = s.link := rfl
  unfold select
  rw [hl, hs, hd]
  split
  · rfl
  · cases s.startLevel with
    | some l => exact s.selectFirst_withMgmt a m l
    | none =>
      cases s.sched.stack with
      | nil => rfl
      | cons top below =>
        show (if s.hasCredit top.frame.level = true then _ else _) = _
        simp only
        split <;> rfl

theorem selectIfFree_withMgmt (a : Agent) (m : Vector Count 8) :
    (s.withMgmt a m).selectIfFree = s.selectIfFree.withMgmt a m := by
  have hl : (s.withMgmt a m).link = s.link := rfl
  have ht : (s.withMgmt a m).trunkTx = s.trunkTx := rfl
  unfold selectIfFree
  rw [hl, ht]
  split
  · exact s.select_withMgmt a m
  · rfl

theorem selectionTrigger_withMgmt (a : Agent) (m : Vector Count 8) :
    (s.withMgmt a m).selectionTrigger = s.selectionTrigger.withMgmt a m := by
  have ht : (s.withMgmt a m).trunkTx = s.trunkTx := rfl
  unfold selectionTrigger
  rw [ht, selectIfFree_withMgmt]
  split
  · exact s.selectIfFree.selectIfFree_withMgmt a m
  · rfl

end Sys2Proof.Machine.State
end

