-- ==== Sys2Proof/Laws/Credit.lean ====
section
/-! SUPPORT. A selection trigger, the credit reports of an event and the internal events that are due, in the words the
statements use (R17, R85, R186). -/

namespace Sys2Proof.Machine

/-! ### Selection triggers (R11, R17) -/

/-- A segment placed on an idle line starts at once, so the latch stays as it was. -/
theorem TrunkTx.place_latch_of_idle (t : TrunkTx) (g : Segment) (h : t.inFlight = none) : (t.place g).latch = t.latch := by
  unfold TrunkTx.place
  rw [h]
  split <;> rfl

namespace State

variable (s : State)

theorem select_latch_of_idle (h : s.trunkTx.inFlight = none) : s.select.trunkTx.latch = s.trunkTx.latch := by
  unfold select selectControl selectFirst selectWhole selectStart selectNext placeSegment
  dsimp only
  repeat' split
  all_goals first | rfl | (simp only [mapTrunkTx_trunkTx]; exact TrunkTx.place_latch_of_idle _ _ h)

theorem selectIfFree_of_up (hu : s.link.state = .up) (hl : s.trunkTx.latch = none) : s.selectIfFree = s.select :=
  if_pos ⟨hu, hl⟩

/-- What a selection trigger does, whatever the link state and the slots (R17). -/
theorem selectionTrigger_follows : selectionFollows s s.selectionTrigger := by
  refine ⟨selectionTrigger_none s, fun hu hl hf => ?_, fun hu hl hf => ?_⟩
  · cases hi : s.trunkTx.inFlight with
    | none => exact absurd hi hf
    | some g => simp [selectionTrigger, hi, selectIfFree_of_up s hu hl]
  · have hu' : s.select.link.state = .up := s.select_inside.1.trans hu
    have hl' : s.select.trunkTx.latch = none := (s.select_latch_of_idle hf).trans hl
    simp [selectionTrigger, hf, selectIfFree_of_up s hu hl, selectIfFree_of_up s.select hu' hl']

end State

/-! ### Credit reports (R85) -/

theorem seqAhead_iff (a b : Half) : seqAhead a b = true ↔ isAhead a b := by simp [seqAhead, isAhead]

/-- The comparison of one level is the report of that level. -/
theorem compareLimit_reported (k : LinkController) (now : Time) (limit : Level → Half) (l : Level) :
    limitsReported now limit (· = l) k (k.compareLimit now (limit l) l) := by
  refine ⟨State.compareLimit_inside k now (limit l) l, ?_, ?_, ?_⟩
  · rintro m rfl ⟨hn, a, ha, hd⟩
    simp [LinkController.compareLimit, ha, (seqAhead_iff _ _).2 hd, hn, timeAfter, Config.advanceAge]
  · intro m hm
    cases ha : k.lastAdvertised.get l with
    | none => simp [LinkController.compareLimit, ha]
    | some a =>
      by_cases hd : seqAhead (limit l) a = true
      · by_cases hn : k.advanceTime.get l = none
        · have hml : m ≠ l := by
            rintro rfl
            exact hm ⟨rfl, hn, a, ha, (seqAhead_iff _ _).1 hd⟩
          simp [LinkController.compareLimit, ha, hd, hn, Four.get_set_other _ _ _ _ hml]
        · simp [LinkController.compareLimit, ha, hd, hn]
      · simp [LinkController.compareLimit, ha, hd]
  · cases ha : k.lastAdvertised.get l with
    | none => simp [LinkController.compareLimit, ha]
    | some a =>
      by_cases hd : seqAhead (limit l) a = true
      · have hd' := (seqAhead_iff _ _).1 hd
        simp only [LinkController.compareLimit, ha, hd, if_true, Bool.or_eq_true, decide_eq_true_iff]
        simp [ha, hd', Config.advanceStep, -BitVec.toNat_sub]
      · have hd' : ¬isAhead (limit l) a := fun h => hd ((seqAhead_iff _ _).2 h)
        simp [LinkController.compareLimit, ha, hd, hd']

/-- Reports of nothing change nothing. -/
theorem limitsReported_none (now : Time) (limit : Level → Half) (k : LinkController) :
    limitsReported now limit (fun _ => False) k k := by
  refine ⟨rfl, fun _ h => h.elim, fun _ _ => ⟨rfl, rfl⟩, ?_⟩
  simp

/-- Reports of some levels and then of others are the reports of all. -/
theorem limitsReported_trans {now : Time} {limit : Level → Half} {p q : Level → Prop} {k k1 k2 : LinkController}
    (h1 : limitsReported now limit p k k1) (h2 : limitsReported now limit q k1 k2) (apart : ∀ l, p l → ¬q l) :
    limitsReported now limit (fun l => p l ∨ q l) k k2 := by
  obtain ⟨e1, a1, b1, c1⟩ := h1
  obtain ⟨e2, a2, b2, c2⟩ := h2
  have hl : k1.lastAdvertised = k.lastAdvertised := by rw [e1]
  have same : ∀ l, q l → k1.advanceTime.get l = k.advanceTime.get l ∧ k1.advanceDeadline.get l = k.advanceDeadline.get l :=
    fun l hq => b1 l fun h => apart l h.1 hq
  have starts : ∀ l, q l → (startsAdvance k1 (limit l) l ↔ startsAdvance k (limit l) l) := by
    intro l hq
    simp only [startsAdvance, hl, (same l hq).1]
  refine ⟨?_, ?_, ?_, ?_⟩
  · rw [e2, e1]
  · rintro l (hp | hq) hs
    · have := b2 l fun h => apart l hp h.1
      exact ⟨this.1.trans (a1 l hp hs).1, this.2.trans (a1 l hp hs).2⟩
    · exact a2 l hq ((starts l hq).2 hs)
  · intro l h
    have hp : ¬(p l ∧ startsAdvance k (limit l) l) := fun x => h ⟨Or.inl x.1, x.2⟩
    have hq : ¬(q l ∧ startsAdvance k1 (limit l) l) := fun x => h ⟨Or.inr x.1, (starts l x.1).1 x.2⟩
    exact ⟨(b2 l hq).1.trans (b1 l hp).1, (b2 l hq).2.trans (b1 l hp).2⟩
  · rw [c2, c1, hl]
    constructor
    · rintro ((h | ⟨l, a, h, r⟩) | ⟨l, a, h, r⟩)
      · exact .inl h
      · exact .inr ⟨l, a, .inl h, r⟩
      · exact .inr ⟨l, a, .inr h, r⟩
    · rintro (h | ⟨l, a, h | h, r⟩)
      · exact .inl (.inl h)
      · exact .inl (.inr ⟨l, a, h, r⟩)
      · exact .inr ⟨l, a, h, r⟩

/-- The comparisons of the levels of a list that moved. -/
def compareMoved (now : Time) (limit : Level → Half) (moved : Level → Bool) (ls : List Level) (k : LinkController) :
    LinkController :=
  ls.foldl (fun k l => if moved l then k.compareLimit now (limit l) l else k) k

theorem compareMoved_cons (now : Time) (limit : Level → Half) (moved : Level → Bool) (l : Level) (ls : List Level) :
    compareMoved now limit moved (l :: ls) =
      fun k => compareMoved now limit moved ls (if moved l then k.compareLimit now (limit l) l else k) := rfl

theorem compareMoved_reported (now : Time) (limit : Level → Half) (moved : Level → Bool) (ls : List Level)
    (k : LinkController) (h : ls.Nodup) :
    limitsReported now limit (fun l => l ∈ ls ∧ moved l = true) k (compareMoved now limit moved ls k) := by
  induction ls generalizing k with
  | nil => simpa [compareMoved] using limitsReported_none now limit k
  | cons l ls ih =>
    have first : limitsReported now limit (fun m => m = l ∧ moved l = true) k
        (if moved l then k.compareLimit now (limit l) l else k) := by
      cases hm : moved l with
      | true => simpa using compareLimit_reported k now limit l
      | false => simpa using limitsReported_none now limit k
    have both := limitsReported_trans first (ih _ (List.nodup_cons.1 h).2) fun m hm hn =>
      (List.nodup_cons.1 h).1 (hm.1 ▸ hn.1)
    have same : (fun m => (m = l ∧ moved l = true) ∨ m ∈ ls ∧ moved m = true) =
        fun m => m ∈ l :: ls ∧ moved m = true := by
      funext m
      simp only [List.mem_cons, eq_iff_iff]
      constructor
      · rintro (⟨rfl, h⟩ | ⟨a, b⟩)
        · exact ⟨.inl rfl, h⟩
        · exact ⟨.inr a, b⟩
      · rintro ⟨rfl | a, b⟩
        · exact .inl ⟨rfl, b⟩
        · exact .inr ⟨a, b⟩
    rw [same] at both
    exact both

namespace State

theorem computedLimit_mapLink (s : State) (f : LinkController → LinkController) (l : Level)
    (h : (f s.link).allotment = s.link.allotment) : (s.mapLink f).computedLimit l = s.computedLimit l := by
  simp [computedLimit, freeCells, h, expectedAt, heldCells]

/-- While the link is UP the reports of an event are the comparisons of the levels that moved. -/
theorem reportMoved_eq (before s : State) (h : s.link.state = .up) :
    reportMoved before s =
      s.mapLink (compareMoved s.now s.computedLimit (limitMoved before s) fourIndices) := by
  have key : ∀ (ls : List Level) (a : State), a.link.state = .up →
      ls.foldl (fun s l => if limitMoved before s l then s.reportLevel l else s) a =
        a.mapLink (compareMoved a.now a.computedLimit (limitMoved before a) ls) := by
    intro ls
    induction ls with
    | nil => intro a _; rfl
    | cons l ls ih =>
      intro a ha
      by_cases hm : limitMoved before a l = true
      · have hs : (a.mapLink (·.compareLimit a.now (a.computedLimit l) l)).link.state = .up := by
          rw [mapLink_link, compareLimit_inside]; exact ha
        have hc : (a.mapLink (·.compareLimit a.now (a.computedLimit l) l)).computedLimit = a.computedLimit := by
          funext m
          exact computedLimit_mapLink a _ m (by rw [compareLimit_inside])
        have := ih _ hs
        rw [hc] at this
        have e : a.reportLevel l = a.mapLink (·.compareLimit a.now (a.computedLimit l) l) := if_pos ha
        rw [List.foldl_cons, if_pos hm, e, this]
        rw [compareMoved_cons, hm]
        rfl
      · have := ih a ha
        rw [List.foldl_cons, if_neg hm, this]
        rw [compareMoved_cons, Bool.eq_false_iff.2 hm]
        rfl
  exact key fourIndices s h

theorem reportMoved_of_not_up (before s : State) (h : s.link.state ≠ .up) : reportMoved before s = s := by
  simp [reportMoved, fourIndices, List.foldl, reportLevel, h]

theorem limitMoved_iff (before s : State) (l : Level) : limitMoved before s l = true ↔ before.limitMoves s l := by
  rw [limitMoved, Bool.or_eq_true, decide_eq_true_iff, decide_eq_true_iff]
  exact or_congr ne_comm ne_comm

/-- What the credit reports of an event do to the state that the event left (R61, R85). -/
theorem creditReport_taken (before s : State) (hstate : s.link.state = before.link.state)
    (hnow : s.now = before.now) :
    reportsTaken before s.link (reportMoved before s) (creditReport before s) := by
  refine ⟨fun hu => ?_, fun hu => ?_, fun h => ?_, fun h1 h2 => ?_⟩
  · have hs : s.link.state = .up := hstate.trans hu
    have r := compareMoved_reported s.now s.computedLimit (limitMoved before s) fourIndices s.link (by decide)
    have hm : (fun l => l ∈ fourIndices ∧ limitMoved before s l = true) = before.limitMoves (reportMoved before s) := by
      funext l
      have hl : l ∈ fourIndices := by revert l; decide
      have : before.limitMoves (reportMoved before s) l = before.limitMoves s l := by rw [reportMoved_eq _ _ hs]; rfl
      rw [this, ← limitMoved_iff]
      simp [hl]
    have hc : (reportMoved before s).computedLimit = s.computedLimit := by
      funext l
      have := reportMoved_inside s before
      rw [reportMoved_eq _ _ hs] at this ⊢
      exact computedLimit_mapLink s _ l (by simpa using this.2.2.2.2.2.2.2.2.2.2.2.2.2.1)
    rw [hm] at r
    rw [hc, ← hnow]
    have hl : (reportMoved before s).link = compareMoved s.now s.computedLimit (limitMoved before s) fourIndices s.link := by
      rw [reportMoved_eq _ _ hs]; rfl
    rw [hl]
    exact r
  · rw [reportMoved_of_not_up before s (hstate ▸ hu)]
  · unfold creditReport triggerIfDue
    rw [if_neg]
    rintro ⟨a, b⟩
    rcases h with h | h
    · rw [a] at h; cases h
    · rw [b] at h; cases h
  · have : creditReport before s = (reportMoved before s).selectionTrigger := if_pos ⟨h1, h2⟩
    rw [this]
    exact selectionTrigger_follows _

/-! ### Internal events that are due (R186) -/

theorem deadlineReached_iff (now : Time) (d : Option Time) : deadlineReached now d = true ↔ passed now d := by
  cases d <;> simp [deadlineReached, timeReached, passed]

theorem mem_dueIf (b : Bool) (c d : Instr) : c ∈ dueIf b d ↔ b = true ∧ c = d := by cases b <;> simp [dueIf]

theorem mem_fourIndices (i : Fin 4) : i ∈ fourIndices := by revert i; decide

/-- The first entry of a list that meets a condition, taken apart. -/
theorem find?_eq_some_split {α : Type} (p : α → Bool) (l : List α) (e : α) :
    l.find? p = some e ↔ ∃ above below, l = above ++ e :: below ∧ (∀ x ∈ above, p x = false) ∧ p e = true := by
  rw [List.find?_eq_some_iff_append]
  constructor
  · rintro ⟨h, a, b, rfl, ha⟩
    exact ⟨a, b, rfl, fun x hx => by simpa using ha x hx, h⟩
  · rintro ⟨a, b, rfl, ha, h⟩
    exact ⟨h, a, b, rfl, fun x hx => by simp [ha x hx]⟩

theorem suspensionDue_iff (s : State) (l : Level) : s.suspensionDue l = true ↔ s.isDue (.suspensionDeadlineExpiry l) := by
  unfold suspensionDue txOpenAt isDue
  constructor
  · intro h
    split at h
    · cases h
    · rename_i e he
      obtain ⟨a, b, hs, ha, hl⟩ := (find?_eq_some_split _ _ _).1 he
      exact ⟨a, e, b, hs, fun x hx => by simpa using ha x hx, by simpa using hl, (deadlineReached_iff _ _).1 h⟩
  · rintro ⟨a, e, b, hs, ha, hl, hp⟩
    have he : s.sched.stack.find? (fun e => decide (e.frame.level = l)) = some e :=
      (find?_eq_some_split _ _ _).2 ⟨a, b, hs, fun x hx => by simpa using ha x hx, by simpa using hl⟩
    simpa [he] using (deadlineReached_iff _ _).2 hp

theorem ageDue_iff (s : State) (l : Level) : s.ageDue l = true ↔ s.isDue (.ageDeadlineExpiry l) := by
  unfold ageDue openAt isDue
  constructor
  · intro h
    split at h
    · cases h
    · rename_i e he
      obtain ⟨a, b, hs, ha, hl⟩ := (find?_eq_some_split _ _ _).1 he
      exact ⟨a, e, b, hs, fun x hx => by simpa using ha x hx, by simpa using hl, (deadlineReached_iff _ _).1 h⟩
  · rintro ⟨a, e, b, hs, ha, hl, hp⟩
    have he : s.reasm.stack.find? (fun e => decide (e.level = l)) = some e :=
      (find?_eq_some_split _ _ _).2 ⟨a, b, hs, fun x hx => by simpa using ha x hx, by simpa using hl⟩
    simpa [he] using (deadlineReached_iff _ _).2 hp

theorem copyBackOverdue_iff (s : State) : s.copyBackOverdue = true ↔ s.isDue .copyBackCompletion := by
  unfold copyBackOverdue isDue
  rw [deadlineReached_iff]
  cases s.config.copyBack <;> simp [passed, timeAfter, Config.copyBackTime]

theorem canStart_iff (e : EgressPort) : e.canStart = true ↔ e.state ≠ .sending ∧ e.queue ≠ [] := by
  simp [EgressPort.canStart]

/-- The internal events the idle step takes up are those that are due (R186). -/
theorem mem_dueEvents (s : State) (c : Instr) : c ∈ s.dueEvents ↔ s.isDue c := by
  unfold dueEvents
  simp only [List.mem_append, mem_dueIf, List.mem_map, List.mem_filter, mem_fourIndices, true_and, suspensionDue_iff,
    ageDue_iff, copyBackOverdue_iff, canStart_iff, holdOffDue, helloDue, silenceDue, keepaliveDue, advanceDue,
    Bool.and_eq_true, decide_eq_true_eq, deadlineReached_iff]
  cases c <;>
    simp only [isDue, peerDue, timeReached, passed, reduceCtorEq, and_false, and_true, or_false, false_or, exists_false,
      exists_eq_right, Instr.advanceDeadlineExpiry.injEq, Instr.suspensionDeadlineExpiry.injEq,
      Instr.ageDeadlineExpiry.injEq, Instr.peerDeadlineExpiry.injEq, Instr.egressFrameStart.injEq, decide_eq_true_eq,
      Option.some.injEq, exists_eq_left']
  exact exists_congr fun _ => and_assoc.trans (and_congr_right fun _ => and_comm)

end State

end Sys2Proof.Machine
end

