-- ==== Sys2Proof/Laws/Due.lean ====
section
/-! SUPPORT. The executions that are due (R158): what an execution leaves of the pins and of the Management Request Queue,
and that the state an event finds has no execution due. -/

namespace Sys2Proof.Machine.State

variable (s : State)

/-! ### The request queue at an execution -/

@[simp] theorem agentClaimFailed_requests (n : Nat) : (s.agentClaimFailed n).agent.requests = s.agent.requests := by
  unfold agentClaimFailed txClaimFailed
  split <;> simp

@[simp] theorem sendTrunk_requests (o : Origin) (bs : List Byte) :
    (s.sendTrunk o bs).1.agent.requests = s.agent.requests := by
  unfold sendTrunk
  split <;> simp

@[simp] theorem trunkReply_requests (g : Half) (bs : List Byte) :
    (s.trunkReply g bs).1.agent.requests = s.agent.requests := by
  have h := s.sendTrunk_requests .trunkReply bs
  unfold trunkReply
  split
  · split <;> rename_i q <;> rw [q] at h <;> simpa using h
  · simp

@[simp] theorem reply_requests (r : Request) (st : Status) (rs : List Byte) :
    (s.reply r st rs).1.agent.requests = s.agent.requests := by
  unfold reply
  split
  · simp
  · exact s.trunkReply_requests _ _

@[simp] theorem linkDown_requests (c : LinkCause) : (s.linkDown c).agent.requests = s.agent.requests := by
  by_cases h : s.link.state = .down
  · simp [linkDown, h]
  · exact (s.linkDown_spec c h).2.2.1

@[simp] theorem linkAction_requests (a : LinkAction) : (s.linkAction a).agent.requests = s.agent.requests := by
  unfold linkAction linkDrop linkHold linkRelease
  dsimp only
  repeat' split
  all_goals simp

/-- The pins stay, and the request queue stays or is emptied, as at a FULL restart. -/
def keepsQueue (s t : State) : Prop :=
  t.pins = s.pins ∧ (t.agent.requests = s.agent.requests ∨ t.agent.requests = [])

theorem applyCommand_keepsQueue (c : DeferredCommand) : s.keepsQueue (s.applyCommand c) := by
  unfold applyCommand
  dsimp only
  split
  · exact ⟨by simp, .inl (by simp)⟩
  · unfold restart restartTraffic restartFull restarted offerRestart clearTraffic
    dsimp only
    repeat' split
    · exact ⟨by simp, .inl (by simp)⟩
    · exact ⟨by simp, .inl (by simp)⟩
    · exact ⟨by simp [cold], .inr (by simp [cold, Agent.cold])⟩

theorem deferOrApply_keepsQueue (c : DeferredCommand) (a : Option AwaitedReply) :
    s.keepsQueue (s.deferOrApply c a) := by
  cases a
  · exact s.applyCommand_keepsQueue c
  · exact ⟨by simp [deferOrApply], .inl (by simp [deferOrApply])⟩

theorem deferCommand_keepsQueue (r : Request) (c : Option DeferredCommand) : s.keepsQueue (s.deferCommand r c) := by
  cases c with
  | none => exact ⟨by simp [deferCommand, refuse], .inl (by simp [deferCommand, refuse])⟩
  | some c =>
    obtain ⟨h1, h2⟩ := (s.reply r .ok []).1.deferOrApply_keepsQueue c (s.reply r .ok []).2
    exact ⟨h1.trans (by simp), by rw [reply_requests] at h2; exact h2⟩

theorem send_keepsQueue (a : Answer) (r : Request) (h : s.keepsQueue a.state) : s.keepsQueue (a.send r) := by
  simpa [keepsQueue, Answer.send] using h

theorem carryOut_keepsQueue (r : Request) : s.keepsQueue (s.carryOut r) := by
  have keep (t : State) (h1 : t.pins = s.pins) (h2 : t.agent.requests = s.agent.requests) : s.keepsQueue t :=
    ⟨h1, .inl h2⟩
  unfold carryOut
  split
  · exact s.send_keepsQueue _ _ (keep _ rfl rfl)
  · refine s.send_keepsQueue _ _ ?_
    unfold carryReadEntries readEntriesOf
    dsimp only
    repeat' split
    all_goals exact keep _ rfl rfl
  · exact s.send_keepsQueue _ _ (keep _ rfl rfl)
  · exact s.send_keepsQueue _ _ (keep _ rfl rfl)
  · exact s.send_keepsQueue _ _ (keep _ rfl rfl)
  · refine s.send_keepsQueue _ _ ?_
    unfold carryReadCounters
    repeat' split
    all_goals (refine keep _ ?_ ?_ <;> dsimp only [Answer.refusal] <;> rfl)
  · refine s.send_keepsQueue _ _ ?_
    unfold carryReadEvents
    dsimp only
    split <;> exact keep _ rfl rfl
  · refine s.send_keepsQueue _ _ ?_
    unfold carryAckEvents
    dsimp only
    split <;> exact keep _ rfl rfl
  · refine s.send_keepsQueue _ _ ?_
    unfold carryFlushLevel
    split
    · exact keep _ rfl rfl
    · exact keep _ (by simp) (by simp)
  · exact s.deferCommand_keepsQueue _ _
  · exact s.deferCommand_keepsQueue _ _

theorem forward_keepsQueue (r : Request) (p : Port) : s.keepsQueue (s.forward r p) := by
  have h1 := s.sendTrunk_requests .forwardedRequest (r.relayed (s.newPeer r p).localTag)
  have h2 := s.sendTrunk_frame .forwardedRequest (r.relayed (s.newPeer r p).localTag)
  unfold forward
  dsimp only
  repeat' split
  · exact ⟨by simp, .inl (by simp [refuse])⟩
  · exact ⟨by simp, .inl (by simp [refuse])⟩
  · rename_i q; rw [q] at h1 h2; exact ⟨by simpa using h2.1, .inl (by simpa [refuse] using h1)⟩
  · rename_i q; rw [q] at h1 h2; exact ⟨by simpa using h2.1, .inl (by simpa using h1)⟩

theorem executeLocal_keepsQueue (r : Request) : s.keepsQueue (s.executeLocal r) := by
  have refused (st : Status) : s.keepsQueue (s.refuse r st) := ⟨by simp, .inl (by simp [refuse])⟩
  unfold executeLocal
  repeat' split
  · exact refused _
  · exact refused _
  · exact s.carryOut_keepsQueue r

theorem executeRequest_keepsQueue (r : Request) : s.keepsQueue (s.executeRequest r) := by
  have refused (st : Status) : s.keepsQueue (s.refuse r st) := ⟨by simp, .inl (by simp [refuse])⟩
  unfold executeRequest
  repeat' split
  · exact refused _
  · exact refused _
  · exact s.executeLocal_keepsQueue r
  · exact s.forward_keepsQueue r _
  · exact s.executeLocal_keepsQueue r

/-- An execution takes the head off the queue, which a FULL restart empties, and moves no pin. -/
theorem executeHead_spec (r : Request) :
    (s.executeHead r).pins = s.pins ∧
      ((s.executeHead r).agent.requests = s.agent.requests.tail ∨ (s.executeHead r).agent.requests = []) := by
  simpa [keepsQueue, executeHead] using
    (s.mapAgent fun a => { a with requests := a.requests.tail }).executeRequest_keepsQueue r

/-! ### The state that an event finds -/

theorem headReady_none_of_empty (h : s.agent.requests = []) : s.agent.headReady = none := by
  unfold Agent.headReady
  split <;> simp [h]

theorem headReady_some {r : Request} (h : s.agent.headReady = some r) : 0 < s.agent.requests.length := by
  rcases Nat.eq_zero_or_pos s.agent.requests.length with e | e
  · rw [s.headReady_none_of_empty (List.eq_nil_of_length_eq_zero e)] at h; simp at h
  · exact e

theorem executeHead_shorter (r : Request) (h : s.agent.headReady = some r) :
    (s.executeHead r).agent.requests.length < s.agent.requests.length := by
  have := s.headReady_some h
  rcases (s.executeHead_spec r).2 with e | e <;> rw [e] <;> simp <;> omega

theorem executeDue_none (n : Nat) (h : s.agent.headReady = none) : s.executeDue n = s := by
  cases n <;> simp [executeDue, h]

theorem settled_none (h : s.agent.headReady = none) : s.settled = s := s.executeDue_none _ h

/-- Executing as often as the queue is long, or oftener, comes to the same. -/
theorem executeDue_enough (n k : Nat) (hn : s.agent.requests.length ≤ n) (hk : s.agent.requests.length ≤ k) :
    s.executeDue n = s.executeDue k := by
  induction n generalizing s k with
  | zero =>
    have e := s.headReady_none_of_empty (List.eq_nil_of_length_eq_zero (Nat.le_zero.mp hn))
    rw [executeDue_none _ _ e, executeDue_none _ _ e]
  | succ n ih =>
    cases hr : s.agent.headReady with
    | none => rw [executeDue_none _ _ hr, executeDue_none _ _ hr]
    | some r =>
      have hs := s.executeHead_shorter r hr
      obtain ⟨k, rfl⟩ : ∃ j, k = j + 1 := ⟨k - 1, by omega⟩
      simpa [executeDue, hr] using ih (s.executeHead r) k (by omega) (by omega)

/-- An event that finds an execution due finds the state that the execution leaves (R158). -/
theorem settled_some (r : Request) (h : s.agent.headReady = some r) : s.settled = (s.executeHead r).settled := by
  have hs := s.executeHead_shorter r h
  obtain ⟨k, hk⟩ : ∃ k, s.agent.requests.length = k + 1 := ⟨s.agent.requests.length - 1, by omega⟩
  rw [settled, hk, executeDue, h]
  exact executeDue_enough _ _ _ (by omega) (Nat.le_refl _)

/-- What every execution keeps, the executions that are due keep. -/
theorem settled_keeps (P : State → Prop) (h : ∀ s r, P s → s.agent.headReady = some r → P (s.executeHead r)) (hs : P s) :
    P s.settled := by
  have go (n : Nat) : ∀ s : State, P s → P (s.executeDue n) := by
    induction n with
    | zero => exact fun _ hs => hs
    | succ n ih =>
      intro s hs
      unfold executeDue
      split
      · exact hs
      · rename_i hr
        exact ih _ (h _ _ hs hr)
  exact go _ _ hs

@[simp] theorem settled_pins : s.settled.pins = s.pins :=
  s.settled_keeps (fun t => t.pins = s.pins) (fun t r e _ => (t.executeHead_spec r).1.trans e) rfl

/-- No execution is due in the state an event finds. -/
theorem settled_headReady : s.settled.agent.headReady = none := by
  have go (n : Nat) : ∀ s : State, s.agent.requests.length ≤ n → (s.executeDue n).agent.headReady = none := by
    induction n with
    | zero => exact fun s h => s.headReady_none_of_empty (List.eq_nil_of_length_eq_zero (Nat.le_zero.mp h))
    | succ n ih =>
      intro s h
      unfold executeDue
      split
      · assumption
      · rename_i r hr
        have := s.executeHead_shorter r hr
        exact ih _ (by omega)
  exact go _ _ (Nat.le_refl _)

end Sys2Proof.Machine.State
end

