-- ==== Sys2Proof/Laws/Exec.lean ====
section
/-! SUPPORT. What each command's dispatch comes to: the state it answers while the reset pin is not held and no execution
is due, and that it changes nothing while the pin is held. -/

namespace Sys2Proof.Laws

open Sys2Proof.Machine

variable (s : State)

theorem takeEvent_atRest (f g : State → State) (h : s.atRest) : takeEvent f g s = .next (g s) := by
  rw [takeEvent, if_neg (by simp [show s.pins.resetHeld = false from h.1]), s.settled_none h.2]

theorem whenRunning_atRest (f : State → State) (h : s.atRest) : whenRunning f s = .next (f s) := takeEvent_atRest s _ _ h

theorem whenRunning_held (f : State → State) (h : s.pins.resetHeld = true) : whenRunning f s = .next s := by
  simp [whenRunning, takeEvent, h]

theorem takeExecution_running (named : Request → Bool) (h : s.running) :
    takeExecution named s = .next (s.executeIf named) := by
  simp [takeExecution, show s.pins.resetHeld = false from h]

theorem exec_segmentReceptionEnd (how : ReceptionEnd) (h : s.atRest) :
    exec (.segmentReceptionEnd how) s = .next (s.lineSymbol how) := by
  rw [exec, execSegmentReceptionEnd, whenRunning_atRest s _ h]

theorem exec_startDelimiterArrival (h : s.atRest) :
    exec .startDelimiterArrival s = .next (s.lineSymbol .startDelimiter) := by
  rw [exec, execStartDelimiterArrival, whenRunning_atRest s _ h]

theorem exec_dataByteArrival (b : Byte) (h : s.atRest) :
    exec (.dataByteArrival b) s = .next (s.mapReception fun r => r.map (·.add b)) := by
  rw [exec, execDataByteArrival, whenRunning_atRest s _ h]

theorem exec_transmissionCompletion (h : s.atRest) : exec .transmissionCompletion s = .next (s.transmissionDone) := by
  rw [exec, execTransmissionCompletion, whenRunning_atRest s _ h]

theorem exec_holdOffExpiry (h : s.atRest) :
    exec .holdOffExpiry s = .next (if s.holdOffDue then s.enterHello else s) := by
  rw [exec, execHoldOffExpiry, whenRunning_atRest s _ h]

theorem exec_helloDeadlineExpiry (h : s.atRest) :
    exec .helloDeadlineExpiry s = .next (if s.helloDue then s.nextHello else s) := by
  rw [exec, execHelloDeadlineExpiry, whenRunning_atRest s _ h]

theorem exec_silenceDeadlineExpiry (h : s.atRest) :
    exec .silenceDeadlineExpiry s = .next (if s.silenceDue then releaseIfDown s (s.linkDown .silence) else s) := by
  rw [exec, execSilenceDeadlineExpiry, whenRunning_atRest s _ h]

theorem exec_keepaliveDeadlineExpiry (h : s.atRest) :
    exec .keepaliveDeadlineExpiry s = .next (if s.keepaliveDue then s.keepalive else s) := by
  rw [exec, execKeepaliveDeadlineExpiry, whenRunning_atRest s _ h]

theorem exec_advanceDeadlineExpiry (l : Level) (h : s.atRest) :
    exec (.advanceDeadlineExpiry l) s = .next (if s.advanceDue l then s.advanceAged l else s) := by
  rw [exec, execAdvanceDeadlineExpiry, whenRunning_atRest s _ h]

theorem exec_suspensionDeadlineExpiry (l : Level) (h : s.atRest) :
    exec (.suspensionDeadlineExpiry l) s = .next (s.suspensionExpired l) := by
  rw [exec, execSuspensionDeadlineExpiry, whenRunning_atRest s _ h]

theorem exec_ageDeadlineExpiry (l : Level) (h : s.atRest) :
    exec (.ageDeadlineExpiry l) s = .next (if s.ageDue l then s.ageAt l else s) := by
  rw [exec, execAgeDeadlineExpiry, whenRunning_atRest s _ h]

theorem exec_peerDeadlineExpiry (tag : Byte) (h : s.atRest) :
    exec (.peerDeadlineExpiry tag) s = .next (s.peerExpired tag) := by
  rw [exec, execPeerDeadlineExpiry, whenRunning_atRest s _ h]

theorem exec_copyBackCompletion (h : s.atRest) :
    exec .copyBackCompletion s = .next (if s.config.copyBack.isSome then s.copyBackDone else s) := by
  rw [exec, execCopyBackCompletion, whenRunning_atRest s _ h]

theorem exec_egressFrameStart (p : Port) (h : s.atRest) :
    exec (.egressFrameStart p) s = .next (s.mapEgress fun q => q.set p (q.get p).startHead) := by
  rw [exec, execEgressFrameStart, whenRunning_atRest s _ h]

theorem exec_egressCompletion (p : Port) (h : s.atRest) :
    exec (.egressCompletion p) s = .next (s.egressCompleted p) := by
  rw [exec, execEgressCompletion, whenRunning_atRest s _ h]

theorem exec_status (h : s.running) : exec .status s = .next (s.executeIf (Request.isLocal 1)) := by
  rw [exec, execStatus, takeExecution_running s _ h]

theorem exec_readEntries (h : s.running) : exec .readEntries s = .next (s.executeIf (Request.isLocal 2)) := by
  rw [exec, execReadEntries, takeExecution_running s _ h]

theorem exec_writeEntry (h : s.running) : exec .writeEntry s = .next (s.executeIf (Request.isLocal 3)) := by
  rw [exec, execWriteEntry, takeExecution_running s _ h]

theorem exec_clearShadow (h : s.running) : exec .clearShadow s = .next (s.executeIf (Request.isLocal 4)) := by
  rw [exec, execClearShadow, takeExecution_running s _ h]

theorem exec_commit (h : s.running) : exec .commit s = .next (s.executeIf (Request.isLocal 5)) := by
  rw [exec, execCommit, takeExecution_running s _ h]

theorem exec_readCounters (h : s.running) : exec .readCounters s = .next (s.executeIf (Request.isLocal 6)) := by
  rw [exec, execReadCounters, takeExecution_running s _ h]

theorem exec_readEvents (h : s.running) : exec .readEvents s = .next (s.executeIf (Request.isLocal 7)) := by
  rw [exec, execReadEvents, takeExecution_running s _ h]

theorem exec_ackEvents (h : s.running) : exec .ackEvents s = .next (s.executeIf (Request.isLocal 8)) := by
  rw [exec, execAckEvents, takeExecution_running s _ h]

theorem exec_flushLevel (h : s.running) : exec .flushLevel s = .next (s.executeIf (Request.isLocal 9)) := by
  rw [exec, execFlushLevel, takeExecution_running s _ h]

theorem exec_linkControlDrop (h : s.running) :
    exec .linkControlDrop s = .next (s.executeIf (Request.isLocalWith 10 1)) := by
  rw [exec, execLinkControlDrop, takeExecution_running s _ h]

theorem exec_linkControlHold (h : s.running) :
    exec .linkControlHold s = .next (s.executeIf (Request.isLocalWith 10 2)) := by
  rw [exec, execLinkControlHold, takeExecution_running s _ h]

theorem exec_linkControlRelease (h : s.running) :
    exec .linkControlRelease s = .next (s.executeIf (Request.isLocalWith 10 3)) := by
  rw [exec, execLinkControlRelease, takeExecution_running s _ h]

theorem exec_trafficRestart (h : s.running) :
    exec .trafficRestart s = .next (s.executeIf (Request.isLocalWith 11 1)) := by
  rw [exec, execTrafficRestart, takeExecution_running s _ h]

theorem exec_fullRestart (h : s.running) : exec .fullRestart s = .next (s.executeIf (Request.isLocalWith 11 2)) := by
  rw [exec, execFullRestart, takeExecution_running s _ h]

theorem exec_requestPeerForwarding (h : s.running) :
    exec .requestPeerForwarding s = .next (s.executeIf Request.isPeer) := by
  rw [exec, execRequestPeerForwarding, takeExecution_running s _ h]

theorem exec_frameValidRise (p : Port) (h : s.atRest) (hp : s.pins.frameValid.get p = false) :
    exec (.frameValidRise p) s = .next ((s.setFrameValid p true).takeRise p) := by
  rw [exec, execFrameValidRise, takeEvent_atRest s _ _ h]
  simp [hp]

theorem exec_stationByteReceived (p : Port) (b : Byte) (h : s.atRest) (hp : s.pins.frameValid.get p = true) :
    exec (.stationByteReceived p b) s = .next (s.takeByte p b) := by
  rw [exec, execStationByteReceived, whenRunning_atRest s _ h]
  simp [hp]

theorem exec_frameValidFall (p : Port) (h : s.atRest) (hp : s.pins.frameValid.get p = true) :
    exec (.frameValidFall p) s = .next ((s.setFrameValid p false).takeFall p) := by
  rw [exec, execFrameValidFall, takeEvent_atRest s _ _ h]
  simp [hp]

theorem exec_lineSignalLoss (h : s.atRest) (hl : s.link.signal = true) : exec .lineSignalLoss s = .next s.signalLost := by
  rw [exec, execLineSignalLoss, takeEvent_atRest s _ _ h]
  simp [hl]

theorem exec_lineSignalReturn (h : s.atRest) (hl : s.link.signal = false) :
    exec .lineSignalReturn s = .next s.signalBack := by
  rw [exec, execLineSignalReturn, takeEvent_atRest s _ _ h]
  simp [hl]

/-! ### Events that find an execution due (R158) -/

theorem takeEvent_due (f g : State → State) (r : Request) (h : s.running) (hr : s.agent.headReady = some r) :
    takeEvent f g s = takeEvent f g (s.executeHead r) := by
  have hs : s.pins.resetHeld = false := h
  simp [takeEvent, hs, (s.executeHead_spec r).1, s.settled_some r hr]

/-- An event that waits for the executions that are due finds the state that the first of them leaves. -/
theorem exec_due (c : Instr) (r : Request) (h : s.running) (hr : s.agent.headReady = some r)
    (hc : waitsForExecutions c = true) : exec c s = exec c (s.executeHead r) := by
  cases c
  all_goals first
    | (simp [waitsForExecutions] at hc; done)
    | (simp only [exec, execLineSignalLoss, execLineSignalReturn, execSegmentReceptionEnd, execFrameValidRise,
          execStationByteReceived, execFrameValidFall, execTransmissionCompletion, execHoldOffExpiry,
          execHelloDeadlineExpiry, execSilenceDeadlineExpiry, execKeepaliveDeadlineExpiry, execAdvanceDeadlineExpiry,
          execSuspensionDeadlineExpiry, execAgeDeadlineExpiry, execPeerDeadlineExpiry, execCopyBackCompletion,
          execEgressFrameStart, execEgressCompletion, execStartDelimiterArrival, execDataByteArrival, whenRunning]
       exact takeEvent_due s _ _ r h hr)

end Sys2Proof.Laws
end

