-- ==== Sys2Proof/Laws/Receive.lean ====
section
/-! SUPPORT. What delivery and the Reassembler leave inside the counters, the Agent and the Reassembler itself. -/

namespace Sys2Proof.Machine.State

variable (s : State)

/-! ### Management payloads and delivery -/

@[simp] theorem dropPayload_inside (b : Subject) (r : DropReason) :
    (s.dropPayload b r).counters.port = s.counters.port ∧ (s.dropPayload b r).counters.level = s.counters.level ∧
      (s.dropPayload b r).counters.trunk = s.counters.trunk ∧ (s.dropPayload b r).counters.hits = s.counters.hits ∧
      (s.dropPayload b r).agent.mode = s.agent.mode ∧ (s.dropPayload b r).agent.requests = s.agent.requests ∧
      (s.dropPayload b r).agent.peers = s.agent.peers ∧ (s.dropPayload b r).agent.nextLocalTag = s.agent.nextLocalTag := by
  simp [dropPayload]

@[simp] theorem acceptRequest_inside (c : Source) (bs : List Byte) :
    (s.acceptRequest c bs).counters.port = s.counters.port ∧
      (s.acceptRequest c bs).counters.level = s.counters.level ∧
      (s.acceptRequest c bs).counters.trunk = s.counters.trunk ∧
      (s.acceptRequest c bs).counters.hits = s.counters.hits ∧ (s.acceptRequest c bs).agent.mode = s.agent.mode ∧
      (s.acceptRequest c bs).agent.peers = s.agent.peers ∧
      (s.acceptRequest c bs).agent.nextLocalTag = s.agent.nextLocalTag := by
  simp [acceptRequest]

@[simp] theorem relayReply_inside (n : Nat) (e : PeerEntry) :
    (s.relayReply n e).counters.port = s.counters.port ∧ (s.relayReply n e).counters.level = s.counters.level ∧
      (s.relayReply n e).counters.trunk = s.counters.trunk ∧ (s.relayReply n e).counters.hits = s.counters.hits ∧
      (s.relayReply n e).agent.mode = s.agent.mode ∧ (s.relayReply n e).agent.requests = s.agent.requests ∧
      (s.relayReply n e).agent.nextLocalTag = s.agent.nextLocalTag := by
  simp [relayReply]

@[simp] theorem lateReply_inside (n : Nat) (h : Half) :
    (s.lateReply n h).counters.port = s.counters.port ∧ (s.lateReply n h).counters.level = s.counters.level ∧
      (s.lateReply n h).counters.trunk = s.counters.trunk ∧ (s.lateReply n h).counters.hits = s.counters.hits ∧
      (s.lateReply n h).agent.mode = s.agent.mode ∧ (s.lateReply n h).agent.requests = s.agent.requests ∧
      (s.lateReply n h).agent.peers = s.agent.peers ∧ (s.lateReply n h).agent.nextLocalTag = s.agent.nextLocalTag := by
  simp [lateReply]

@[simp] theorem peerReply_inside (n : Nat) (bs : List Byte) :
    (s.peerReply n bs).counters.port = s.counters.port ∧ (s.peerReply n bs).counters.level = s.counters.level ∧
      (s.peerReply n bs).counters.trunk = s.counters.trunk ∧ (s.peerReply n bs).counters.hits = s.counters.hits ∧
      (s.peerReply n bs).agent.mode = s.agent.mode ∧ (s.peerReply n bs).agent.requests = s.agent.requests ∧
      (s.peerReply n bs).agent.nextLocalTag = s.agent.nextLocalTag := by
  unfold peerReply
  split <;> simp

@[simp] theorem trunkPayload_inside (n : Nat) (bs : List Byte) :
    (s.trunkPayload n bs).counters.port = s.counters.port ∧ (s.trunkPayload n bs).counters.level = s.counters.level ∧
      (s.trunkPayload n bs).counters.trunk = s.counters.trunk ∧
      (s.trunkPayload n bs).counters.hits = s.counters.hits ∧ (s.trunkPayload n bs).agent.mode = s.agent.mode ∧
      (s.trunkPayload n bs).agent.nextLocalTag = s.agent.nextLocalTag := by
  unfold trunkPayload
  split <;> simp

@[simp] theorem offerTo_inside (n cells : Nat) (p : Port) :
    (offerTo n cells s p).counters.level = s.counters.level ∧
      (offerTo n cells s p).counters.trunk = s.counters.trunk ∧
      (offerTo n cells s p).counters.mgmt = s.counters.mgmt ∧ (offerTo n cells s p).counters.hits = s.counters.hits := by
  unfold offerTo
  split <;> simp

@[simp] theorem offerToAll_inside (n cells : Nat) (ps : List Port) :
    (ps.foldl (offerTo n cells) s).counters.level = s.counters.level ∧
      (ps.foldl (offerTo n cells) s).counters.trunk = s.counters.trunk ∧
      (ps.foldl (offerTo n cells) s).counters.mgmt = s.counters.mgmt ∧
      (ps.foldl (offerTo n cells) s).counters.hits = s.counters.hits := by
  induction ps generalizing s with
  | nil => simp
  | cons p ps ih => simpa using ih (offerTo n cells s p)

@[simp] theorem deliverUser_inside (n : Nat) (d : RxDescriptor) :
    (s.deliverUser n d).counters.level = s.counters.level ∧ (s.deliverUser n d).counters.trunk = s.counters.trunk ∧
      (s.deliverUser n d).counters.mgmt = s.counters.mgmt ∧ (s.deliverUser n d).counters.hits = s.counters.hits := by
  simp [deliverUser]

@[simp] theorem deliver_inside (n : Nat) :
    (s.deliver n).counters.level = s.counters.level ∧ (s.deliver n).counters.trunk = s.counters.trunk ∧
      (s.deliver n).counters.hits = s.counters.hits ∧ (s.deliver n).agent.mode = s.agent.mode ∧
      (s.deliver n).agent.nextLocalTag = s.agent.nextLocalTag := by
  unfold deliver
  repeat' split
  all_goals simp

@[simp] theorem handOff_inside (l : Level) (n : Nat) :
    (s.handOff l n).counters.trunk = s.counters.trunk ∧ (s.handOff l n).counters.hits = s.counters.hits ∧
      (s.handOff l n).agent.mode = s.agent.mode ∧ (s.handOff l n).agent.nextLocalTag = s.agent.nextLocalTag := by
  simp [handOff]

/-! ### The Reassembler -/

@[simp] theorem markDiscarding_inside (l : Level) (r : AbortReason) :
    (s.markDiscarding l r).reasm.expected = s.reasm.expected := by
  unfold markDiscarding
  split <;> simp

@[simp] theorem abortWhere_inside (f : RxEntry → Bool) (r : AbortReason) :
    (s.abortWhere f r).counters.port = s.counters.port ∧ (s.abortWhere f r).counters.trunk = s.counters.trunk ∧
      (s.abortWhere f r).counters.hits = s.counters.hits ∧ (s.abortWhere f r).agent.mode = s.agent.mode ∧
      (s.abortWhere f r).agent.nextLocalTag = s.agent.nextLocalTag ∧
      (s.abortWhere f r).reasm.expected = s.reasm.expected ∧ (s.abortWhere f r).agent.requests = s.agent.requests ∧
      (s.abortWhere f r).agent.peers = s.agent.peers := by
  simp [abortWhere, setRxStack]

@[simp] theorem abortAt_inside (l : Level) (r : AbortReason) :
    (s.abortAt l r).counters.port = s.counters.port ∧ (s.abortAt l r).counters.trunk = s.counters.trunk ∧
      (s.abortAt l r).counters.hits = s.counters.hits ∧ (s.abortAt l r).agent.mode = s.agent.mode ∧
      (s.abortAt l r).agent.nextLocalTag = s.agent.nextLocalTag ∧ (s.abortAt l r).reasm.expected = s.reasm.expected ∧
      (s.abortAt l r).agent.requests = s.agent.requests ∧ (s.abortAt l r).agent.peers = s.agent.peers := by
  simp [abortAt]

@[simp] theorem abortAtOrAbove_inside (l : Level) :
    (s.abortAtOrAbove l).counters.port = s.counters.port ∧ (s.abortAtOrAbove l).counters.trunk = s.counters.trunk ∧
      (s.abortAtOrAbove l).counters.hits = s.counters.hits ∧ (s.abortAtOrAbove l).agent.mode = s.agent.mode ∧
      (s.abortAtOrAbove l).agent.nextLocalTag = s.agent.nextLocalTag ∧
      (s.abortAtOrAbove l).reasm.expected = s.reasm.expected ∧
      (s.abortAtOrAbove l).agent.requests = s.agent.requests ∧ (s.abortAtOrAbove l).agent.peers = s.agent.peers := by
  simp [abortAtOrAbove]

@[simp] theorem abortAbove_inside (l : Level) :
    (s.abortAbove l).counters.port = s.counters.port ∧ (s.abortAbove l).counters.trunk = s.counters.trunk ∧
      (s.abortAbove l).counters.hits = s.counters.hits ∧ (s.abortAbove l).agent.mode = s.agent.mode ∧
      (s.abortAbove l).agent.nextLocalTag = s.agent.nextLocalTag ∧
      (s.abortAbove l).reasm.expected = s.reasm.expected ∧ (s.abortAbove l).agent.requests = s.agent.requests ∧
      (s.abortAbove l).agent.peers = s.agent.peers := by
  simp [abortAbove]

@[simp] theorem creditViolation_inside (l : Level) (h q : Half) :
    (s.creditViolation l h q).counters.port = s.counters.port ∧
      (s.creditViolation l h q).counters.trunk = s.counters.trunk ∧
      (s.creditViolation l h q).counters.hits = s.counters.hits ∧
      (s.creditViolation l h q).agent.mode = s.agent.mode ∧
      (s.creditViolation l h q).agent.nextLocalTag = s.agent.nextLocalTag ∧
      (s.creditViolation l h q).agent.requests = s.agent.requests ∧
      (s.creditViolation l h q).agent.peers = s.agent.peers := by
  simp [creditViolation]

@[simp] theorem rxClaimFailed_inside (l : Level) (h : Half) (n : Nat) :
    (s.rxClaimFailed l h n).counters.port = s.counters.port ∧
      (s.rxClaimFailed l h n).counters.level = s.counters.level ∧
      (s.rxClaimFailed l h n).counters.trunk = s.counters.trunk ∧
      (s.rxClaimFailed l h n).counters.hits = s.counters.hits ∧ (s.rxClaimFailed l h n).agent.mode = s.agent.mode ∧
      (s.rxClaimFailed l h n).agent.nextLocalTag = s.agent.nextLocalTag ∧
      (s.rxClaimFailed l h n).agent.requests = s.agent.requests ∧ (s.rxClaimFailed l h n).agent.peers = s.agent.peers := by
  unfold rxClaimFailed
  split <;> simp

@[simp] theorem cellRefused_inside (l : Level) (h q : Half) :
    (s.cellRefused l h q).counters.port = s.counters.port ∧ (s.cellRefused l h q).counters.trunk = s.counters.trunk ∧
      (s.cellRefused l h q).counters.hits = s.counters.hits ∧ (s.cellRefused l h q).agent.mode = s.agent.mode ∧
      (s.cellRefused l h q).agent.nextLocalTag = s.agent.nextLocalTag ∧
      (s.cellRefused l h q).agent.requests = s.agent.requests ∧ (s.cellRefused l h q).agent.peers = s.agent.peers := by
  unfold cellRefused
  split <;> simp

@[simp] theorem pushRx_inside (e : RxEntry) :
    (s.pushRx e).reasm.expected = s.reasm.expected := by
  simp [pushRx]

@[simp] theorem setRxStack_inside (q : List RxEntry) :
    (s.setRxStack q).reasm.expected = s.reasm.expected := by
  simp [setRxStack]

@[simp] theorem advanceEntry_inside (l : Level) (n : Nat) :
    (s.advanceEntry l n).reasm.expected = s.reasm.expected := by
  simp [advanceEntry]

@[simp] theorem startFrame_inside (d : RxData) :
    (s.startFrame d).counters.trunk = s.counters.trunk ∧ (s.startFrame d).counters.hits = s.counters.hits ∧
      (s.startFrame d).agent.mode = s.agent.mode ∧ (s.startFrame d).agent.nextLocalTag = s.agent.nextLocalTag ∧
      (s.startFrame d).reasm.expected = s.reasm.expected := by
  unfold startFrame
  split
  · simp
  · dsimp only
    split
    · simp
    · rename_i h
      obtain ⟨p, -, -, rfl⟩ := storeCell_eq _ _ _ _ h
      simp

@[simp] theorem wholeFrame_inside (d : RxData) :
    (s.wholeFrame d).counters.trunk = s.counters.trunk ∧ (s.wholeFrame d).counters.hits = s.counters.hits ∧
      (s.wholeFrame d).agent.mode = s.agent.mode ∧ (s.wholeFrame d).agent.nextLocalTag = s.agent.nextLocalTag ∧
      (s.wholeFrame d).reasm.expected = s.reasm.expected := by
  unfold wholeFrame
  split
  · simp
  · split
    · simp
    · rename_i h
      obtain ⟨p, -, -, rfl⟩ := storeCell_eq _ _ _ _ h
      simp

@[simp] theorem orphan_inside (l : Level) :
    (s.orphan l).counters.port = s.counters.port ∧ (s.orphan l).counters.trunk = s.counters.trunk ∧
      (s.orphan l).counters.hits = s.counters.hits := by
  simp [orphan]

@[simp] theorem storeSegment_inside (e : RxEntry) (d : RxData) :
    ((s.storeSegment e d).1).counters.trunk = s.counters.trunk ∧
      ((s.storeSegment e d).1).counters.hits = s.counters.hits ∧ ((s.storeSegment e d).1).agent.mode = s.agent.mode ∧
      ((s.storeSegment e d).1).agent.nextLocalTag = s.agent.nextLocalTag ∧
      ((s.storeSegment e d).1).reasm.expected = s.reasm.expected := by
  unfold storeSegment
  split
  · simp
  · split
    · simp
    · rename_i h
      obtain ⟨n, -, h⟩ := Option.bind_eq_some_iff.mp h
      obtain ⟨p, -, -, rfl⟩ := storeCell_eq _ _ _ _ h
      simp

@[simp] theorem completeFrame_inside (e : RxEntry) :
    (s.completeFrame e).counters.trunk = s.counters.trunk ∧ (s.completeFrame e).counters.hits = s.counters.hits ∧
      (s.completeFrame e).agent.mode = s.agent.mode ∧ (s.completeFrame e).agent.nextLocalTag = s.agent.nextLocalTag ∧
      (s.completeFrame e).reasm.expected = s.reasm.expected := by
  unfold completeFrame
  dsimp only
  split <;> simp

@[simp] theorem matchedSegment_inside (e : RxEntry) (d : RxData) :
    (s.matchedSegment e d).counters.trunk = s.counters.trunk ∧
      (s.matchedSegment e d).counters.hits = s.counters.hits ∧ (s.matchedSegment e d).agent.mode = s.agent.mode ∧
      (s.matchedSegment e d).agent.nextLocalTag = s.agent.nextLocalTag ∧
      (s.matchedSegment e d).reasm.expected = s.reasm.expected := by
  unfold matchedSegment
  dsimp only
  split
  · split <;> simp
  · have h := s.storeSegment_inside e d
    split <;> rename_i q <;> rw [q] at h <;> dsimp only at h <;> repeat' split
    all_goals simp [h]

@[simp] theorem continueFrame_inside (d : RxData) :
    (s.continueFrame d).counters.trunk = s.counters.trunk ∧ (s.continueFrame d).counters.hits = s.counters.hits ∧
      (s.continueFrame d).agent.mode = s.agent.mode ∧ (s.continueFrame d).agent.nextLocalTag = s.agent.nextLocalTag ∧
      (s.continueFrame d).reasm.expected = s.reasm.expected := by
  unfold continueFrame
  dsimp only
  repeat' split
  all_goals simp

@[simp] theorem kindRule_inside (d : RxData) :
    (s.kindRule d).counters.trunk = s.counters.trunk ∧ (s.kindRule d).counters.hits = s.counters.hits ∧
      (s.kindRule d).agent.mode = s.agent.mode ∧ (s.kindRule d).agent.nextLocalTag = s.agent.nextLocalTag ∧
      (s.kindRule d).reasm.expected = s.reasm.expected := by
  unfold kindRule
  split <;> simp

/-- The expected number of a segment's level follows it, and nothing else in the stack of numbers moves (R45). -/
@[simp] theorem expectNext_expected (l : Level) (q : Half) :
    (s.expectNext l q).reasm.expected = s.reasm.expected.map (fun e => e.set l (q + 1#16)) ∧
      (s.expectNext l q).reasm.stack = s.reasm.stack := by
  simp [expectNext]

/-- A segment in sequence: no gap and not stale (R45). -/
theorem reassemble_inSequence (d : RxData) (e : Four Half) (he : s.reasm.expected = some e)
    (h : d.seq = e.get d.level) : s.reassemble d = (s.expectNext d.level d.seq).kindRule d := by
  unfold reassemble
  simp [expectedAt, he, h]

end Sys2Proof.Machine.State
end

