-- ==== Sys2Proof/Laws/Pools.lean ====
section
/-! SUPPORT. The Receive Pool: what each descriptor reads as after a claim, a store, a return or a change, and the
held-cell counts. -/

namespace Sys2Proof.Machine

namespace RxPool

variable (p : RxPool)

theorem desc_putDesc (n m : Nat) (d : RxDescriptor) : (p.putDesc n d).desc m = if m = n then some d else p.desc m := by
  simp [desc, putDesc, sparseGet_insert]

@[simp] theorem putDesc_parts (n : Nat) (d : RxDescriptor) :
    (p.putDesc n d).levelPart = p.levelPart ∧ (p.putDesc n d).reserve = p.reserve ∧
      (p.putDesc n d).exhaustionReported = p.exhaustionReported := ⟨rfl, rfl, rfl⟩

theorem desc_mapDesc (n m : Nat) (f : RxDescriptor → RxDescriptor) :
    (p.mapDesc n f).desc m = if m = n then (p.desc m).map f else p.desc m := by
  unfold mapDesc
  split
  · rename_i h
    split
    · rename_i e
      subst e
      simp [h]
    · rfl
  · rename_i d h
    rw [desc_putDesc]
    split
    · rename_i e
      subst e
      simp [h]
    · rfl

@[simp] theorem mapDesc_parts (n : Nat) (f : RxDescriptor → RxDescriptor) :
    (p.mapDesc n f).levelPart = p.levelPart ∧ (p.mapDesc n f).reserve = p.reserve ∧
      (p.mapDesc n f).exhaustionReported = p.exhaustionReported := by
  unfold mapDesc
  split <;> simp

@[simp] theorem noteReturn_parts :
    p.noteReturn.levelPart = p.levelPart ∧ p.noteReturn.reserve = p.reserve ∧ p.noteReturn.descs = p.descs ∧
      (∀ m, p.noteReturn.desc m = p.desc m) := ⟨rfl, rfl, rfl, fun _ => rfl⟩

/-- A released frame is no descriptor in use; the others are untouched (R117). -/
theorem desc_release (n m : Nat) : (p.release n).desc m = if m = n then none else p.desc m := by
  unfold release
  split
  · rename_i h
    split
    · rename_i e
      subst e
      simp [h]
    · rfl
  · split <;> simp [desc, noteReturn, sparseGet_erase]

/-- The cells of a frame marked discarding go back, and it keeps its descriptor (R55). -/
theorem desc_dropCells (n m : Nat) :
    (p.dropCells n).desc m = if m = n then (p.desc m).map fun d => { d with chain := [] } else p.desc m := by
  unfold dropCells
  split
  · rename_i h
    split
    · rename_i e
      subst e
      simp [h]
    · rfl
  · rename_i d h
    have e : ∀ q : RxPool, q.descs = (p.putDesc n { d with chain := [] }).descs →
        q.desc m = if m = n then (p.desc m).map fun d => { d with chain := [] } else p.desc m := by
      intro q hq
      have : q.desc m = (p.putDesc n { d with chain := [] }).desc m := by simp [desc, hq]
      rw [this, desc_putDesc]
      split
      · rename_i e
        subst e
        simp [h]
      · rfl
    split
    · exact e _ rfl
    · exact e _ rfl

/-- A claim of a level descriptor takes the first free one (R48). -/
theorem claimLevelDesc_eq (l : Level) (h : Half) (n : Nat) (d : Nat) (ds : List Nat)
    (e : p.levelPart.freeDescs = d :: ds) :
    p.claimLevelDesc l h n =
      some (d, { p with levelPart := { p.levelPart with freeDescs := ds } }.putDesc d
        { cls := .level l, stream := h, length := n, chain := [], holder := .reassembler, refCount := 0 }) := by
  simp [claimLevelDesc, e]

/-- A stored payload takes the first free cell, at the end of its frame's chain (R49). -/
theorem storeCell_eq (l : Level) (n c : Nat) (cs : List Nat) (bs : List Byte) (d : RxDescriptor)
    (hc : p.levelPart.freeCells = c :: cs) (hd : p.desc n = some d) (hl : d.cls = .level l) :
    p.storeCell l n bs =
      some ({ p with levelPart := { p.levelPart with freeCells := cs } }.putDesc n
        { d with chain := d.chain ++ [PoolCell.mk c bs] }) := by
  unfold storeCell
  rw [hc, hd, Option.filter_some]
  simp [RxDescriptor.ofLevel, hl]

/-- Cells held by one level's frames in a list of descriptors. -/
theorem heldCells_sum (l : Level) :
    p.heldCells l = (p.descs.map fun e => if e.2.ofLevel l then e.2.chain.length else 0).sum := rfl

theorem sum_sparseInsert_le (f : Nat × RxDescriptor → Nat) (n : Nat) (d : RxDescriptor) (m : List (Nat × RxDescriptor)) :
    ((sparseInsert n d m).map f).sum ≤ f (n, d) + (m.map f).sum := by
  induction m with
  | nil => simp [sparseInsert]
  | cons e m ih =>
    obtain ⟨i, w⟩ := e
    unfold sparseInsert
    split
    · simp
    · split
      · simp
      · simp only [List.map_cons, List.sum_cons]
        omega

/-- A descriptor with no cells adds none to any level. -/
theorem heldCells_putDesc_empty (n : Nat) (d : RxDescriptor) (l : Level) (h : d.chain = []) :
    (p.putDesc n d).heldCells l ≤ p.heldCells l := by
  have := sum_sparseInsert_le (fun e => if e.2.ofLevel l then e.2.chain.length else 0) n d p.descs
  simp only [h, List.length_nil, ite_self, Nat.zero_add] at this
  exact this

/-- A descriptor put at an unused number adds its own cells. -/
theorem sum_sparseInsert_fresh (f : Nat × RxDescriptor → Nat) (n : Nat) (d : RxDescriptor)
    (m : List (Nat × RxDescriptor)) (h : sparseGet n m = none) :
    ((sparseInsert n d m).map f).sum = f (n, d) + (m.map f).sum := by
  induction m with
  | nil => simp [sparseInsert]
  | cons e m ih =>
    obtain ⟨i, w⟩ := e
    rw [sparseGet_cons] at h
    split at h
    · simp at h
    · rename_i hi
      unfold sparseInsert
      split
      · simp
      · split
        · rename_i _ hk
          exact absurd hk.symm hi
        · simp only [List.map_cons, List.sum_cons, ih h]
          omega

end RxPool

namespace State

variable (s : State)

/-- No frame is named by an aborting rule: nothing happens. -/
theorem abortWhere_none (named : RxEntry → Bool) (r : AbortReason) (h : ∀ e ∈ s.reasm.stack, named e = false) :
    s.abortWhere named r = s := by
  have h1 : s.reasm.stack.filter named = [] := by
    rw [List.filter_eq_nil_iff]
    intro e he
    simp [h e he]
  have h2 : s.reasm.stack.filter (fun e => !named e) = s.reasm.stack := by
    rw [List.filter_eq_self]
    intro e he
    simp [h e he]
  simp [abortWhere, h1, h2, setRxStack, mapReasm]

end State

end Sys2Proof.Machine
end

