-- ==== Sys2Proof/Laws/Replies.lean ====
section
/-! SUPPORT. A reply to a station port, granted or dropped, and one placed for the trunk, in the words the statements use
(R159, R160), the execution of the head request, and the reserve in the states that runs reach (R112). -/

namespace Sys2Proof.Machine

theorem replyBytes_length (tag : Half) (command : Byte) (status : Status) (results : List Byte) :
    (replyBytes tag command status results).length = 5 + results.length := by
  simp [replyBytes, halfBytes]; omega

namespace State

/-- What a reserve frame leaves when the reserve can grant it (R112, R126). -/
theorem placeReserve_of_grants (s : State) (p : Port) (stream : Half) (bs : List Byte) (h : s.reserveGrants bs.length) :
    ∃ n t, s.placeReserve p stream bs = some (n, t) ∧ reserveFramePlaced s t p n stream bs ∧
      onlyChanges [.rxPool, .egress] s t := by
  obtain ⟨hd, hc⟩ := h
  obtain ⟨n, ns, hn⟩ := List.exists_cons_of_ne_nil hd
  refine ⟨n, _, by simp [placeReserve, RxPool.claimReserve, hn, hc]; rfl, ?_, ?_⟩
  · refine ⟨by simp [hn], by simp [hn], by simp, ?_, ?_, by simp, ?_, ?_, ?_⟩
    · simp [RxPool.desc_putDesc]
    · intro m hm
      exact (RxPool.desc_putDesc _ n m _).trans (if_neg hm)
    · simp [appendEgress, EgressPort.append]
    · simp only [appendEgress, mapEgress_egress, mapRxPool_egress, Four.get_set_self, EgressPort.append]
      cases (s.egress.get p).state <;> rfl
    · intro q hq
      simp only [appendEgress, mapEgress_egress]
      rw [Four.get_set_other _ _ _ _ hq]; rfl
  · intro b hb
    cases b <;> first | rfl | exact absurd (by decide) hb

theorem placeReserve_of_not_grants (s : State) (p : Port) (stream : Half) (bs : List Byte)
    (h : ¬s.reserveGrants bs.length) : s.placeReserve p stream bs = none := by
  unfold placeReserve RxPool.claimReserve
  cases hn : s.rxPool.reserve.freeDescs with
  | nil => rfl
  | cons n ns =>
    have hc : ¬cellsFor bs.length ≤ s.rxPool.reserve.freeCells.length := fun hc => h ⟨by simp [hn], hc⟩
    simp [hc]

/-- The reply to a station port over a state u that its command left, with the head request of s taken off (R159). -/
theorem reply_replied (s u : State) (r : Request) (p : Port) (latch : Bool) (status : Status) (results : List Byte)
    (hp : r.source = .station p) (hx : u.rxPool = s.rxPool) (he : u.egress = s.egress)
    (ha : u.agent = { s.agent with requests := s.agent.requests.tail, noticeLatch := latch }) :
    replied s u.counters latch (u.reply r status results).1 r p status results ∧
      onlyChanges [.rxPool, .egress, .counters] u (u.reply r status results).1 := by
  have hl := replyBytes_length r.tag r.command status results
  have grants : u.reserveGrants (5 + results.length) ↔ s.reserveGrants (5 + results.length) := by
    simp only [reserveGrants, hx]
  simp only [reply, hp, localReply]
  by_cases h : u.reserveGrants (5 + results.length)
  · obtain ⟨n, t, ht, hf, ho⟩ :=
      u.placeReserve_of_grants p r.replyStream (replyBytes r.tag r.command status results) (by rwa [hl])
    have hta : t.agent = u.agent := ho .agent (by decide)
    have htc : t.counters = u.counters := ho .counters (by decide)
    simp only [ht]
    refine ⟨⟨by simpa [hta] using ha, fun _ => ⟨n, ?_, ?_, ?_⟩, fun hn => absurd (grants.1 h) hn⟩, ?_⟩
    · simp [hta, ha]
    · show ((t.countMgmt .replies).counters) = _
      rw [← htc]; rfl
    · simpa [reserveFramePlaced, hx, he] using hf
    · intro b hb
      have := ho b
      cases b <;> first | exact absurd (by decide) hb | simpa [Block.same] using this (by decide)
  · rw [u.placeReserve_of_not_grants _ _ _ (by rwa [hl])]
    refine ⟨⟨by simpa using ha, fun hg => absurd (grants.2 hg) h, fun _ => ⟨rfl, by simpa using hx, by simpa using he⟩⟩, ?_⟩
    intro b hb
    cases b <;> first | rfl | exact absurd (by decide) hb

/-- A trunk reply that can be placed is placed (R160). -/
theorem reply_answered (s : State) (r : Request) (g : Half) (n : Nat) (status : Status) (results : List Byte)
    (hr : r.source = .trunk g) (h : s.trunkReplyReady g n results.length) :
    ∃ t, s.withoutHead.reply r status results = (t, some (.trunk n)) ∧ trunkAnswered s t r n status results := by
  obtain ⟨hu, hg, hn, hc⟩ := h
  obtain ⟨ns, hd⟩ : ∃ ns, s.txPool.freeDescs = n :: ns := by
    cases hx : s.txPool.freeDescs with
    | nil => simp [hx] at hn
    | cons x xs => exact ⟨xs, by simpa [hx] using hn⟩
  have hl := replyBytes_length r.tag r.command status results
  obtain ⟨v, hv⟩ :
      ∃ v, v = (s.withoutHead.mapTxPool fun p =>
          { p with freeCells := p.freeCells.drop (cellsFor (5 + results.length)), freeDescs := ns }).joinQueue
        (s.withoutHead.agentFrame .trunkReply (replyBytes r.tag r.command status results) n
          (s.txPool.freeCells.take (cellsFor (5 + results.length)))) := ⟨_, rfl⟩
  have joined := (v.countMgmt .replies).selectionTrigger_follows
  refine ⟨(v.countMgmt .replies).selectionTrigger, ?_, v.countMgmt .replies, ?_, joined, by simp, by simp, ?_⟩
  · have commutes : (v.countMgmt .replies).selectionTrigger = v.selectionTrigger.countMgmt .replies := by
      have := v.selectionTrigger_withMgmt v.agent (raise v.counters.mgmt MgmtCounter.replies.position 1)
      rw [show v.countMgmt .replies = v.withMgmt v.agent (raise v.counters.mgmt MgmtCounter.replies.position 1) from rfl, this]
      have hm := (v.selectionTrigger_inside).2.2.2.2.2.2.2.2.2.2.2.2.2.2.2.2.1
      have ha : v.selectionTrigger.agent = v.agent := by simp
      simp only [withMgmt, countMgmt, mapCounters, hm, ha]
    rw [commutes, hv]
    simp only [reply, hr, trunkReply, sendTrunk, TxPool.claimFrame, hl]
    simp [withoutHead, hu, hg, hd, hc, admission]
    rfl
  · subst hv
    refine ⟨rfl, ?_, by simp [joinQueue, withoutHead], by simp [joinQueue, withoutHead, hd], ?_, ?_⟩
    · simp [joinQueue, withoutHead, agentFrame, hl]
      rfl
    · simp [joinQueue, withoutHead, agentFrame]
    · intro b hb
      cases b <;> first | rfl | exact absurd (by decide) hb
  · intro b hb
    subst hv
    cases b <;> first | (exact absurd (by decide) hb) | (simp [Block.same, joinQueue, withoutHead])

/-- A command that names the head request executes it (R158, log 5). -/
theorem executeIf_head (s : State) (r : Request) (named : Request → Bool) (hm : s.agent.mode = .ready)
    (hr : s.agent.requests.head? = some r) (hn : named r = true) : s.executeIf named = s.executeHead r := by
  simp [executeIf, Agent.headReady, hm, hr, hn]

end State

/-- A number of a list that is another list's range once is in only one of two parts of it. -/
theorem not_mem_of_perm_range {free used range : List Nat} (h : (free ++ used).Perm range) (hr : range.Nodup) (m : Nat)
    (hf : m ∈ free) : m ∉ used := fun hu =>
  (List.nodup_append.1 (h.nodup_iff.2 hr)).2.2 m hf m hu rfl

/-- In every state with its Receive Pool kept no descriptor on the reserve's free list is in use (R110, R112). -/
theorem State.reserveUnused_of_kept (s : State) (h : s.rxPool.kept) : s.reserveUnused := by
  obtain ⟨rising, -, levels, -, reserve⟩ := h
  intro m hm
  cases hd : s.rxPool.desc m with
  | none => rfl
  | some d =>
    exfalso
    have mem : (m, d) ∈ s.rxPool.descs := (sparseGet_eq_some m d _ rising).1 hd
    have range : m ∈ List.range' 124 4 := reserve.mem_iff.1 (List.mem_append_left _ hm)
    have used : m ∈ (s.rxPool.inUse d.inLevelPart).map (·.1) :=
      List.mem_map.2 ⟨(m, d), List.mem_filter.2 ⟨mem, by simp⟩, rfl⟩
    cases hp : d.inLevelPart with
    | false =>
      rw [hp] at used
      exact not_mem_of_perm_range reserve List.nodup_range' m hm used
    | true =>
      rw [hp] at used
      have := levels.mem_iff.1 (List.mem_append_right _ used)
      simp at this range
      omega

end Sys2Proof.Machine
end

