-- ==== Sys2Proof/WellFormed.lean ====
section
/-! DEFINITION. Which queues of commands the pins can produce. Every operand's type holds exactly the values the manual
gives it, so what can be ill-formed is the order of pin events: a level that rises twice, or a release of a pin that is
not held. The machine itself takes every command in every state (log 7, log 8). -/

namespace Sys2Proof

/-- The levels of the input pins that have edges. -/
structure PinLevels where
  resetHeld : Bool
  signal : Bool
  frameValid : Four Bool
  deriving DecidableEq, Repr

/-- Whether one command is possible at these pin levels (R71, R92, R94, R186). -/
def Instr.possibleAt (l : PinLevels) : Instr → Bool
  | .resetPinAssert _ _ => !l.resetHeld
  | .coldStart => l.resetHeld
  | .lineSignalLoss => l.signal
  | .lineSignalReturn => !l.signal
  | .segmentReceptionEnd _ => l.signal
  | .frameValidRise p => !l.frameValid.get p
  | .stationByteReceived _ _ => true
  | .frameValidFall p => l.frameValid.get p
  | .transmissionCompletion => !l.resetHeld
  | .holdOffExpiry => !l.resetHeld
  | .helloDeadlineExpiry => !l.resetHeld
  | .silenceDeadlineExpiry => !l.resetHeld
  | .keepaliveDeadlineExpiry => !l.resetHeld
  | .advanceDeadlineExpiry _ => !l.resetHeld
  | .suspensionDeadlineExpiry _ => !l.resetHeld
  | .ageDeadlineExpiry _ => !l.resetHeld
  | .peerDeadlineExpiry _ => !l.resetHeld
  | .copyBackCompletion => !l.resetHeld
  | .egressFrameStart _ => !l.resetHeld
  | .egressCompletion _ => !l.resetHeld
  | .status => !l.resetHeld
  | .readEntries => !l.resetHeld
  | .writeEntry => !l.resetHeld
  | .clearShadow => !l.resetHeld
  | .commit => !l.resetHeld
  | .readCounters => !l.resetHeld
  | .readEvents => !l.resetHeld
  | .ackEvents => !l.resetHeld
  | .flushLevel => !l.resetHeld
  | .linkControlDrop => !l.resetHeld
  | .linkControlHold => !l.resetHeld
  | .linkControlRelease => !l.resetHeld
  | .trafficRestart => !l.resetHeld
  | .fullRestart => !l.resetHeld
  | .requestPeerForwarding => !l.resetHeld
  | .startDelimiterArrival => l.signal
  | .dataByteArrival _ => l.signal
  | .supplyBelowOperatingLevel => true

/-- The pin levels after one command. -/
def Instr.pinsAfter (l : PinLevels) : Instr → PinLevels
  | .resetPinAssert _ _ => { l with resetHeld := true }
  | .coldStart => { l with resetHeld := false }
  | .lineSignalLoss => { l with signal := false }
  | .lineSignalReturn => { l with signal := true }
  | .segmentReceptionEnd _ => l
  | .frameValidRise p => { l with frameValid := l.frameValid.set p true }
  | .stationByteReceived _ _ => l
  | .frameValidFall p => { l with frameValid := l.frameValid.set p false }
  | .transmissionCompletion => l
  | .holdOffExpiry => l
  | .helloDeadlineExpiry => l
  | .silenceDeadlineExpiry => l
  | .keepaliveDeadlineExpiry => l
  | .advanceDeadlineExpiry _ => l
  | .suspensionDeadlineExpiry _ => l
  | .ageDeadlineExpiry _ => l
  | .peerDeadlineExpiry _ => l
  | .copyBackCompletion => l
  | .egressFrameStart _ => l
  | .egressCompletion _ => l
  | .status => l
  | .readEntries => l
  | .writeEntry => l
  | .clearShadow => l
  | .commit => l
  | .readCounters => l
  | .readEvents => l
  | .ackEvents => l
  | .flushLevel => l
  | .linkControlDrop => l
  | .linkControlHold => l
  | .linkControlRelease => l
  | .trafficRestart => l
  | .fullRestart => l
  | .requestPeerForwarding => l
  | .startDelimiterArrival => l
  | .dataByteArrival _ => l
  | .supplyBelowOperatingLevel => l

/-- A queue of commands that the pins can produce from these levels. -/
def commandsWellFormed (l : PinLevels) : List Instr → Bool
  | [] => true
  | c :: cs => c.possibleAt l && commandsWellFormed (c.pinsAfter l) cs

end Sys2Proof
end

