-- ==== Sys2Proof/Tests/Slice0.lean ====
section
/-! SUPPORT. Tests of the model: the pin-order check with ill-formed queues, the byte layouts of the Formats chapter,
single steps of the worked sequences of chapter 12, and, for every statement with hypotheses, a concrete state and
operands that meet them. -/

set_option Elab.async false
set_option synthInstance.maxSize 8192

namespace Sys2Proof.Tests

open Sys2Proof Sys2Proof.Machine

/-! ### Ill-formed queues of commands -/

def pinsHigh : PinLevels := { resetHeld := false, signal := true, frameValid := Four.all false }
def pinsHeld : PinLevels := { resetHeld := true, signal := false, frameValid := Four.all false }

theorem test_pin_order_is_accepted :
    commandsWellFormed pinsHigh
      [.frameValidRise 0, .stationByteReceived 0 7#8, .frameValidFall 0, .lineSignalLoss, .lineSignalReturn,
        .startDelimiterArrival, .dataByteArrival 1#8, .segmentReceptionEnd .endDelimiter,
        .resetPinAssert ⟨false, true⟩ ⟨true, false⟩, .coldStart, .status] = true := by decide

theorem test_rise_while_high_is_refused :
    commandsWellFormed pinsHigh [.frameValidRise 1, .frameValidRise 1] = false := by decide
theorem test_fall_while_low_is_refused : commandsWellFormed pinsHigh [.frameValidFall 2] = false := by decide
theorem test_loss_while_absent_is_refused :
    commandsWellFormed pinsHigh [.lineSignalLoss, .lineSignalLoss] = false := by decide
theorem test_return_while_present_is_refused : commandsWellFormed pinsHigh [.lineSignalReturn] = false := by decide
theorem test_assert_while_held_is_refused :
    commandsWellFormed pinsHeld [.resetPinAssert ⟨false, false⟩ ⟨false, false⟩] = false := by decide
theorem test_release_while_not_held_is_refused : commandsWellFormed pinsHigh [.coldStart] = false := by decide
theorem test_line_bytes_without_signal_are_refused :
    commandsWellFormed pinsHeld [.startDelimiterArrival] = false ∧
      commandsWellFormed pinsHeld [.dataByteArrival 0#8] = false ∧
      commandsWellFormed pinsHeld [.segmentReceptionEnd .idleFill] = false := by decide
theorem test_internal_events_in_reset_are_refused :
    [Instr.transmissionCompletion, .holdOffExpiry, .helloDeadlineExpiry, .silenceDeadlineExpiry, .keepaliveDeadlineExpiry,
        .advanceDeadlineExpiry 0, .suspensionDeadlineExpiry 1, .ageDeadlineExpiry 2, .peerDeadlineExpiry 3#8,
        .copyBackCompletion, .egressFrameStart 0, .egressCompletion 0, .status, .readEntries, .writeEntry, .clearShadow,
        .commit, .readCounters, .readEvents, .ackEvents, .flushLevel, .linkControlDrop, .linkControlHold,
        .linkControlRelease, .trafficRestart, .fullRestart, .requestPeerForwarding].all
      (fun c => !commandsWellFormed pinsHeld [c]) = true := by decide

/-! ### Byte layouts -/

theorem test_crc_check_value :
    crc16 [0x31#8, 0x32#8, 0x33#8, 0x34#8, 0x35#8, 0x36#8, 0x37#8, 0x38#8, 0x39#8] = 0x29B1#16 := by decide +kernel

/-- A CONTROL written out by R190: code 8, P 8, limits 252, 8, 256 and 65535. -/
def controlWord : List Byte :=
  [0x80#8, 0x00#8, 0x00#8, 0x00#8, 0x08#8, 0x00#8, 0xFC#8, 0x00#8, 0x08#8, 0x01#8, 0x00#8, 0xFF#8, 0xFF#8, 0xA0#8, 0x36#8]

theorem test_control_bytes :
    checkSegment controlWord = some (.control ⟨252#16, 8#16, 256#16, 65535#16⟩) ∧
      (Segment.control ⟨252#16, 8#16, 256#16, 65535#16⟩).bytes = controlWord := by decide +kernel

/-- A HELLO written out by R190: code 9, P 9, heard-you 1, limits 252, 8, 252, 252. -/
def helloWord : List Byte :=
  [0x90#8, 0x00#8, 0x00#8, 0x00#8, 0x09#8, 0x01#8, 0x00#8, 0xFC#8, 0x00#8, 0x08#8, 0x00#8, 0xFC#8, 0x00#8, 0xFC#8, 0x31#8,
    0xB0#8]

theorem test_hello_bytes :
    checkSegment helloWord = some (.hello true ⟨252#16, 8#16, 252#16, 252#16⟩) ∧
      (Segment.hello true ⟨252#16, 8#16, 252#16, 252#16⟩).bytes = helloWord := by decide +kernel

/-- A WHOLE written out by R190: code 4, level L3, tag 4, number 43, P 10, stream 21, N 10. -/
def wholeWord : List Byte :=
  [0x43#8, 0x04#8, 0x00#8, 0x2B#8, 0x0A#8, 0x00#8, 0x15#8, 0x00#8, 0x0A#8, 0x00#8, 0x01#8, 0x02#8, 0x03#8, 0x04#8, 0x05#8,
    0x06#8, 0x07#8, 0x08#8, 0x09#8, 0x52#8, 0xCD#8]

theorem test_whole_bytes :
    checkSegment wholeWord =
      some
        (.data
          { kind := .whole, level := 3, tag := 4#8, seq := 43#16, stream := 21#16, length := 10
            payload := [0#8, 1#8, 2#8, 3#8, 4#8, 5#8, 6#8, 7#8, 8#8, 9#8] }) := by decide +kernel

theorem test_malformed_segments_are_bad :
    checkSegment (withCrc [0x50#8, 0#8, 0#8, 0#8, 1#8, 9#8]) = none ∧
      checkSegment (withCrc [0x34#8, 0#8, 0#8, 0#8, 1#8, 9#8]) = none ∧
      checkSegment (withCrc [0x30#8, 0#8, 0#8, 0#8, 0#8]) = none ∧
      checkSegment (withCrc [0x40#8, 0#8, 0#8, 0#8, 1#8, 0#8, 5#8, 0#8, 2#8, 9#8]) = none ∧
      checkSegment (withCrc [0x90#8, 0#8, 0#8, 0#8, 9#8, 2#8, 0#8, 0#8, 0#8, 0#8, 0#8, 0#8, 0#8, 0#8]) = none ∧
      checkSegment [0x30#8, 0#8, 0#8, 0#8, 1#8, 9#8, 0#8, 0#8] = none ∧ checkSegment [] = none := by decide +kernel

/-- Frames of 1, 64, 65, 150, 300 and 1536 bytes are cut into 1, 1, 2, 3, 5 and 24 segments (R3). -/
theorem test_segment_counts :
    [1, 64, 65, 150, 300, 1536].map segmentCount = [1, 1, 2, 3, 5, 24] ∧
      (List.range 3).map (segmentKind 150) = [.start, .middle, .end_] ∧
      (List.range 3).map (segmentLength 150) = [64, 64, 22] ∧ segmentLength 1536 23 = 64 ∧ segmentLength 65 1 = 1 := by
  decide

theorem test_station_frame_bytes :
    stationFrame 60#16 [1#8, 2#8, 3#8] =
      [0x00#8, 0x3C#8, 0x00#8, 0x03#8, 0x01#8, 0x02#8, 0x03#8, 0x2F#8, 0x4C#8] := by decide +kernel

/-- The entries after a cold start read as R192 says. -/
theorem test_default_entries :
    Bank.default.entryBytes .levels 0 =
        [0x01#8, 0x00#8, 0xC0#8, 0#8, 0#8, 0#8, 0#8, 252#8, 0#8, 100#8, 0#8, 0#8] ∧
      (Bank.default.entryBytes .levels 3).drop 2 = [0x40#8, 0#8, 0#8, 0#8, 0#8, 252#8, 0#8, 100#8, 0#8, 0#8] ∧
      Bank.default.entryBytes .ports 2 = [0xA0#8, 0#8, 0x01#8, 0x00#8] ∧
      Bank.default.entryBytes .part 0 = [0x40#8, 0#8, 0#8, 0#8, 3#8, 3#8, 0#8, 50#8, 0x0F#8, 0#8] ∧
      Bank.default.entryBytes .streams 511 = zeroBytes 8 ∧ Bank.default.entryBytes .deliveries 0 = zeroBytes 6 := by
  decide

/-- An event record as R193 lays it out: RX_ABORT of L2, stream 20, detail 6. -/
theorem test_record_bytes :
    recordBytes
        { sequence := 258#16, time := 0x01020304#32, kind := .rxAbort, subject := .level 2, stream := some 20#16
          detail := 6#16 } =
      [1#8, 2#8, 1#8, 2#8, 3#8, 4#8, 6#8, 2#8, 0x22#8, 0x80#8, 0#8, 20#8, 0#8, 6#8, 0#8, 0#8] := by decide

theorem test_sequence_comparison :
    seqAhead 1#16 0#16 = true ∧ seqAhead 0#16 0#16 = false ∧ seqAhead 32767#16 0#16 = true ∧
      seqAhead 32768#16 0#16 = false ∧ seqAhead 0#16 65535#16 = true := by decide

/-! ### States with small pools -/

def small : State :=
  { State.reset with
    txPool := { freeCells := [0, 1, 2, 3, 4, 5, 6, 7], freeDescs := [0, 1, 2], exhaustionReported := false }
    rxPool :=
      { levelPart := { freeCells := [0, 1, 2], freeDescs := [0, 1] }
        reserve := { freeCells := [1008, 1009, 1010, 1011], freeDescs := [124, 125] }
        descs := [], exhaustionReported := false } }

def upLink : LinkController :=
  { LinkController.cold true with
    state := .up, heard := true, txCredit := Four.all (some 252#16), allotment := Four.all 252
    lastAdvertised := Four.all (some 252#16), silenceDeadline := some 2000#32, keepaliveDeadline := some 250#32
    generation := 1#16 }

/-- The link has just entered UP and nothing is in flight. -/
def upState : State := { small with link := upLink, reasm := { stack := [], expected := some (Four.all 0#16) } }

/-- The state at a time. -/
def at_ (s : State) (now : Time) : State := { s with time := { s.time with timeBase := now } }

def helloState : State :=
  { small with link := { LinkController.cold true with state := .hello, helloDeadline := some 1000#32 } }

def txFrame (number : Nat) (level : Level) (stream : Half) (length : Nat) : TxDescriptor :=
  { number := number, level := level, atomic := false, trunkStream := stream, frameLength := length
    cells := (List.range (cellsFor length)).map fun i => ⟨i, List.replicate (min 64 (length - 64 * i)) 0#8⟩
    origin := .station, admissionTime := 0#32, ingressPort := some 0 }

def txEntry (f : TxDescriptor) (next : Nat) : TxEntry :=
  { frame := f, tag := 0#8, nextIndex := next, atomic := false, suspensionDeadline := none, protectedMark := false }

def rxEntry (level : Level) (tag : Byte) (stream : Half) (length bytes segments : Nat) (descriptor : Option Nat) : RxEntry :=
  { level := level, tag := tag, stream := stream, declaredLength := length, bytesReceived := bytes
    segmentsReceived := segments, descriptor := descriptor, discarding := none, ageDeadline := some 100000#32 }

def rxDesc (level : Level) (stream : Half) (length : Nat) (cells : List Nat) : RxDescriptor :=
  { cls := .level level, stream := stream, length := length
    chain := cells.map fun n => ⟨n, List.replicate 64 0#8⟩, holder := .reassembler, refCount := 0 }

def after : Host.Outcome State Fault Refusal → Option State
  | .next s => some s
  | .fault _ => none
  | .refused _ => none

/-- What a view sees after a command. -/
def see {β : Type} (c : Instr) (s : State) (view : State → β) : Option β := (after (exec c s)).map view

def segmentView : Option Segment → Option (DataKind × Level × Half × Nat)
  | some (.data d) => some (d.kind, d.level, d.seq, d.index)
  | some (.control _) => none
  | some (.hello _ _) => none
  | none => none

def stackView (s : State) : List (Level × Nat) := s.sched.stack.map fun e => (e.frame.level, e.nextIndex)

/-! ### Single steps of the worked sequences (chapter 12) -/

/-- The state after reset is what a power-up's cold start leaves. -/
theorem test_reset_is_a_power_up :
    State.restarted Pins.reset true .powerUp TrunkTx.cold (Four.all ⟨[], .idle⟩) 0 [] = State.reset := rfl

/-- Frame A of 300 bytes, whole and with a good CRC, in reception at S0. -/
def receivingA : State :=
  { upState with
    pins := { upState.pins with frameValid := Four.all true }
    sprs :=
      upState.sprs.set 0
        { state := .receiving 0, byteCount := 306, overlength := false, header := [0#8, 10#8, 0x01#8, 0x2C#8]
          trailing := [0x1D#8, 0x0F#8], crc := 0x1D0F#16, cells := (txFrame 0 0 10#16 300).cells }
    txPool := { upState.txPool with freeDescs := [1, 2], freeCells := [5, 6, 7] } }

/-- 12.1, time 0: A is admitted on an idle line: START A starts and MIDDLE A1 is latched. -/
theorem test_admission_on_an_idle_line :
    see (.frameValidFall 0) receivingA (fun t => (segmentView t.trunkTx.inFlight, segmentView t.trunkTx.latch, stackView t)) =
      some (some (.start, 0, 0#16, 0), some (.middle, 0, 1#16, 1), [(0, 2)]) := by decide +kernel

def middleOfA (index : Nat) (seq : Half) : Segment :=
  .data { kind := .middle, level := 0, tag := 0#8, seq := seq, index := index, frame := txFrame 0 0 10#16 300 }

/-- A is open with two MIDDLEs in the transmitter, and B of 150 bytes waits at L2. -/
def preempting : State :=
  { upState with
    trunkTx := { inFlight := some (middleOfA 1 1#16), latch := some (middleOfA 2 2#16), lastHello := none, cutOff := false }
    sched :=
      { queues := (Four.all []).set 2 [txFrame 1 2 20#16 150], stack := [txEntry (txFrame 0 0 10#16 300) 3]
        nextTag := ⟨1#8, 0#8, 0#8, 0#8⟩, nextSeq := ⟨3#16, 0#16, 0#16, 0#16⟩ } }

/-- 12.1, time 192: MIDDLE A1 completes, MIDDLE A2 starts, START B is selected over A. -/
theorem test_preemption_at_a_completion :
    see .transmissionCompletion preempting
        (fun t => (segmentView t.trunkTx.inFlight, segmentView t.trunkTx.latch, stackView t,
          t.counters.levelAt 2 .preemptions, t.counters.levelAt 0 .segmentsSent)) =
      some (some (.middle, 0, 2#16, 2), some (.start, 2, 0#16, 0), [(2, 1), (0, 3)], 1#32, 1#32) := by decide +kernel

/-- The state with the bytes of a segment in reception. -/
def taking (s : State) (bytes : List Byte) : State := { s with reception := some { bytes := bytes, overlength := false } }

/-- Y of 12.2 after END B #42 was lost: A open below B. -/
def lostEnd : State :=
  { upState with
    reasm :=
      { stack := [rxEntry 2 3#8 20#16 150 128 2 (some 11), rxEntry 0 7#8 10#16 300 128 2 (some 10)]
        expected := some ⟨20#16, 0#16, 42#16, 0#16⟩ }
    rxPool := { upState.rxPool with descs := [(10, rxDesc 0 10#16 300 [20, 21]), (11, rxDesc 2 20#16 150 [22, 23])] } }

/-- 12.2: MIDDLE A #20 finds its frame below B, whose END was lost: B is aborted and A is stored. -/
theorem test_lost_end_aborts_the_frame_above :
    see (.segmentReceptionEnd .endDelimiter)
        (taking lostEnd (withCrc ([0x20#8, 7#8, 0#8, 20#8, 64#8] ++ List.replicate 64 0#8)))
        (fun t => (t.reasm.stack.map fun e => (e.level, e.bytesReceived), t.expectedAt 0, t.heldCells 0, t.heldCells 2,
          t.computedLimit 2, (t.events.records.drop 1).map fun r => (r.kind, r.subject, r.stream, r.detail))) =
      some ([(0, 192)], 21#16, 3, 0, 294#16, [(.rxAbort, .level 2, some 20#16, 6#16)]) := by decide +kernel

/-- Y of 12.3 after MIDDLE H #4 was lost: H open at L1, whose allotment is 8. -/
def lostMiddle : State :=
  { upState with
    link :=
      { upLink with
        allotment := ⟨252, 8, 252, 252⟩, lastAdvertised := ⟨some 252#16, some 8#16, some 252#16, some 252#16⟩ }
    reasm := { stack := [rxEntry 1 1#8 60#16 150 64 1 (some 11)], expected := some ⟨0#16, 4#16, 0#16, 0#16⟩ }
    rxPool :=
      { upState.rxPool with
        descs :=
          [(10, { rxDesc 1 60#16 150 [20, 21, 22] with holder := .egress, refCount := 1 }), (11, rxDesc 1 60#16 150 [23])] } }

/-- 12.3: END H #5 arrives after the loss of #4: H is aborted LOST_SEGMENT and the limit becomes 11. -/
theorem test_gap_marks_and_the_end_aborts :
    see (.segmentReceptionEnd .endDelimiter)
        (taking lostMiddle (withCrc ([0x31#8, 1#8, 0#8, 5#8, 22#8] ++ List.replicate 22 0#8)))
        (fun t => (t.reasm.stack.length, t.expectedAt 1, t.heldCells 1, t.computedLimit 1, t.link.advanceTime.get 1,
          t.counters.levelAt 1 (.aborts .lostSegment))) =
      some (0, 6#16, 3, 11#16, some 0#32, 1#32) := by decide +kernel

/-- A state in which the Agent is about to execute one request from S1. -/
def asked (s : State) (type command : Byte) (args : List Byte) : State :=
  { s with
    agent := { s.agent with requests := [{ source := .station 1, payload := [2#8, 0x20#8, type, command, 0#8, 41#8] ++ args }] } }

/-- Payload of the frame at the tail of a port's Egress Queue. -/
def lastSent (s : State) (p : Port) : Option (List Byte) :=
  (s.egress.get p).queue.getLast?.bind fun n => (s.rxPool.desc n).map fun d => chainBytes d.chain

/-- 12.4: a COMMIT during copy-back is BUSY before its generation is looked at; one at an old generation is answered with
the current one. -/
theorem test_commit_checks_in_order :
    see .commit (asked { small with config := { small.config with generation := 9#16, copyBack := some 0#32 } } 0#8 5#8 [0#8, 8#8])
        (fun t => lastSent t 1) = some (some [2#8, 0x20#8, 2#8, 5#8, 1#8]) ∧
      see .commit (asked { small with config := { small.config with generation := 9#16 } } 0#8 5#8 [0#8, 8#8])
        (fun t => lastSent t 1) = some (some [2#8, 0x20#8, 2#8, 5#8, 5#8, 0#8, 9#8]) := by decide +kernel

/-- 12.4: COMMIT from P at generation 8 swaps the banks and answers 9. -/
theorem test_commit_swaps :
    see .commit (asked { small with config := { small.config with generation := 8#16 } } 0#8 5#8 [0#8, 8#8])
        (fun t => (lastSent t 1, t.config.generation, t.config.copyBack)) =
      some (some [2#8, 0x20#8, 2#8, 5#8, 0#8, 0#8, 9#8], 9#16, some 0#32) := by decide +kernel

/-- 12.4: P's WRITE ENTRY of Stream Table 20 = S0, stream 500, FORWARD, L1. -/
theorem test_write_entry :
    see .writeEntry (asked small 0#8 3#8 [1#8, 0#8, 20#8, 0x80#8, 0#8, 1#8, 0#8, 1#8, 0xF4#8, 0#8, 0#8])
        (fun t => (t.config.shadow.streams, t.config.active.streams, (lastSent t 1).map (·.drop 4))) =
      some
        ([(20, { matchPort := .port 0, stream := 500#16, action := .forward, level := 1, atomic := false, trunkStream := none })],
          [], some [0#8]) := by decide +kernel

/-- 12.5: a request-peer READ COUNTERS is relayed as a request-local under local tag 0 and starts at once. -/
theorem test_forwarding :
    see .requestPeerForwarding (asked upState 1#8 6#8 [4#8, 0#8, 0#8, 0#8])
        (fun t => (t.agent.peers.map fun e => (e.localTag, e.port, e.originalTag, e.replyStream, e.command, e.deadline),
          t.agent.nextLocalTag, segmentView t.trunkTx.inFlight,
          t.trunkTx.inFlight.map fun g => (g.bytes.drop 9).take 10)) =
      some ([(0#8, 1, 0x0220#16, 41#16, 6#8, 50000#32)], 1#8, some (.whole, 3, 0#16, 0),
        some [0#8, 0#8, 0#8, 6#8, 0#8, 41#8, 4#8, 0#8, 0#8, 0#8]) := by decide +kernel

/-- 12.5: the deadline passes: PEER_TIMEOUT to S1 with status 9, and the event with subject S1 and detail 0. -/
theorem test_peer_timeout :
    see (.peerDeadlineExpiry 0#8)
        { small with
          agent :=
            { small.agent with
              peers :=
                [{ localTag := 0#8, port := 1, originalTag := 0x0220#16, replyStream := 41#16, command := 6#8
                   deadline := 1000#32 }] }
          time := { small.time with timeBase := 1000#32 } }
        (fun t => (t.agent.peers.length, lastSent t 1, (t.events.records.drop 1).map fun r => (r.kind, r.subject, r.detail))) =
      some (0, some [2#8, 0x20#8, 2#8, 6#8, 9#8], [(.peerTimeout, .port 1, 0#16)]) := by decide +kernel

/-- The STATUS block of a part with small pools just after reset. -/
theorem test_status_block :
    small.statusBlock =
      [0x4B#8, 0x5A#8, 0x04#8, 0x40#8, 2#8, 1#8] ++ zeroBytes 8 ++ [0#8, 0#8, 0#8, 5#8, 0#8, 0#8, 0#8] ++ zeroBytes 24 ++
        [0#8, 0#8, 0#8, 8#8, 3#8, 0#8, 3#8, 2#8, 4#8, 2#8, 1#8] := by decide +kernel

/-- An entry to UP by HELLO leaves the good run at 0 and uses no free value. -/
theorem test_hello_entry_starts_the_good_run_at_zero :
    see (.segmentReceptionEnd .endDelimiter) (taking helloState helloWord)
        (fun t => (t.link.state, t.link.goodRun, t.freeCount)) = some (.up, 0, 0) := by decide +kernel

/-- With nothing to do one microsecond passes; at 10 ms the hold-off is taken up. -/
theorem test_idle_step :
    (after (step small)).map (fun t => t.time.timeBase) = some 1#32 ∧
      (after (step { small with time := { small.time with timeBase := 10000#32 } })).map (fun t => t.pending) =
        some [.holdOffExpiry] := by decide +kernel

/-- An execution that is due is taken before any other event: the reply to a STATUS is under way when a start delimiter
begins a reception. -/
theorem test_execution_is_taken_first :
    see .startDelimiterArrival (asked small 0#8 1#8 [])
        (fun t => (t.agent.requests, (lastSent t 1).map (·.take 5), t.reception.isSome)) =
      some ([], some [2#8, 0x20#8, 2#8, 1#8, 0#8], true) := by decide +kernel

/-- A DOWN event cuts off the segment in flight: its end delimiter goes out, and idle fill after it. -/
theorem test_cut_off_sends_an_end_delimiter :
    see .silenceDeadlineExpiry { preempting with time := { preempting.time with timeBase := 2000#32 } }
        (fun t => (t.trunkTransmitLine, (after (step t)).map State.trunkTransmitLine)) =
      some (.endDelimiter, some .idleFill) := by decide +kernel

/-! ### Witnesses: states and operands that meet the hypotheses of the statements

Each theorem is named after the statement whose hypotheses it meets; where a statement has several clauses, each clause
has its own conjunct, at the ends of its range. -/

theorem noCommandOnTrunk_of_ready (s : State) (h : s.agent.mode = .ready) : s.noCommandOnTrunk := by
  intro c n; rw [h]; exact nofun

/-- A request of six bytes or more at the head of the queue, as `asked` puts it there. -/
def request (type command : Byte) (args : List Byte) : Request :=
  { source := .station 1, payload := [2#8, 0x20#8, type, command, 0#8, 41#8] ++ args }

theorem test_witness_EmptyQueueStepServesTheAgentOrTime :
    (∀ type command argument : Byte,
      (asked small type command [argument]).pending = [] ∧ (asked small type command [argument]).running ∧
        (asked small type command [argument]).agent.mode = .ready ∧
        (asked small type command [argument]).agent.requests.head? = some (request type command [argument]) ∧
        (asked small type command [argument]).agent.headReady = some (request type command [argument]) ∧
        (request type command [argument]).type = type ∧ (request type command [argument]).command = command ∧
        (request type command [argument]).args.head? = some argument) ∧
      waitsForExecutions (.dataByteArrival 0#8) = true ∧ small.pending = [] ∧ small.atRest ∧ (∀ c, ¬small.isDue c) ∧
      (at_ upState 250#32).pending = [] ∧ (at_ upState 250#32).atRest ∧ (at_ upState 250#32).isDue .keepaliveDeadlineExpiry := by
  refine ⟨fun _ _ _ => ⟨rfl, rfl, rfl, rfl, rfl, rfl, rfl, rfl⟩, rfl, rfl, ⟨rfl, rfl⟩, fun c h => ?_, rfl, ⟨rfl, rfl⟩, rfl,
    250#32, rfl, by decide⟩
  have none_due : small.dueEvents = [] := by decide +kernel
  exact List.not_mem_nil (none_due ▸ (State.mem_dueEvents small c).2 h)

theorem test_witness_LineSignalGovernsTheHoldOff :
    (small.atRest ∧ small.link.signal = true ∧ small.link.state = .down) ∧
      (upState.atRest ∧ upState.link.signal = true ∧ upState.link.state ≠ .down ∧ upState.noCommandOnTrunk) ∧
      (helloState.link.state ≠ .down ∧ helloState.link.signal = true) ∧
      ((State.setSignal small false).atRest ∧ (State.setSignal small false).link.signal = false) := by
  refine ⟨⟨⟨rfl, rfl⟩, rfl, rfl⟩, ⟨⟨rfl, rfl⟩, rfl, by decide, noCommandOnTrunk_of_ready _ rfl⟩, ⟨by decide, rfl⟩,
    ⟨rfl, rfl⟩, rfl⟩

/-- A reception that has held some bytes. -/
def held (bytes : Nat) : Reception := { bytes := List.replicate bytes 0#8, overlength := false }

theorem test_witness_ReceptionBuildsOneSegment :
    (small.atRest ∧ small.reception = none) ∧
      (taking small (List.replicate 74 0#8)).reception = some (held 74) ∧ (held 74).bytes.length < 75 ∧
      (taking small (List.replicate 75 0#8)).reception = some (held 75) ∧ 75 ≤ (held 75).bytes.length :=
  ⟨⟨⟨rfl, rfl⟩, rfl⟩, rfl, by decide, rfl, by decide⟩

theorem test_witness_UntakenSegmentsAreOnlyCounted :
    ((taking small [1#8]).atRest ∧ (taking small [1#8]).link.state ≠ .up ∧ checkSegment [1#8] = none) ∧
      ((taking small wholeWord).link.state = .down ∧ (checkSegment wholeWord).isSome) ∧
      ((taking small controlWord).link.state = .down ∧ (checkSegment controlWord).isSome) ∧
      ((taking helloState wholeWord).link.state = .hello ∧ (taking helloState wholeWord).link.heard = false ∧
        (checkSegment wholeWord).isSome) := by
  refine ⟨⟨⟨rfl, rfl⟩, ?_⟩, ?_⟩ <;> decide +kernel

/-- UP with an error budget. -/
def budget (n : Nat) : State := taking { upState with link := { upLink with errorBudget := n } } [1#8]

theorem test_witness_BadSegmentsSpendTheErrorBudget :
    ((budget 14).atRest ∧ (budget 14).link.state = .up ∧ checkSegment [1#8] = none ∧ (budget 14).link.errorBudget < 15) ∧
      (budget 15).atRest ∧ 15 ≤ (budget 15).link.errorBudget ∧ (budget 15).noCommandOnTrunk :=
  ⟨⟨⟨rfl, rfl⟩, rfl, by decide +kernel, by decide⟩, ⟨rfl, rfl⟩, by decide, noCommandOnTrunk_of_ready _ rfl⟩

/-- A HELLO with heard-you 0. -/
def helloZero : List Byte := withCrc [0x90#8, 0#8, 0#8, 0#8, 9#8, 0#8, 0#8, 252#8, 0#8, 8#8, 0#8, 252#8, 0#8, 252#8]

theorem test_witness_HelloStoresThePeersLimits :
    (taking helloState helloZero).atRest ∧
      checkSegment helloZero = some (.hello false ⟨252#16, 8#16, 252#16, 252#16⟩) ∧
      (taking helloState helloZero).link.state = .hello := ⟨⟨rfl, rfl⟩, by decide +kernel, rfl⟩

/-- HELLO, with a HELLO heard and one latched. -/
def heardState : State :=
  { helloState with
    link := { helloState.link with heard := true }
    trunkTx :=
      { inFlight := some (.hello false (Four.all 252#16)), latch := some (.hello true (Four.all 252#16))
        lastHello := some (Four.all 252#16), cutOff := false } }

/-- A HELLO with heard-you 1; and, once one is heard, a WHOLE and a CONTROL. -/
theorem test_witness_AnsweredHelloBringsTheLinkUp :
    ((taking helloState helloWord).atRest ∧
        checkSegment helloWord = some (.hello true ⟨252#16, 8#16, 252#16, 252#16⟩) ∧
        (taking helloState helloWord).link.state = .hello) ∧
      ∀ bytes ∈ [wholeWord, controlWord],
        (taking heardState bytes).pins.resetHeld = false ∧ (taking heardState bytes).agent.headReady = none ∧
          (taking heardState bytes).link.state = .hello ∧ (taking heardState bytes).link.heard = true ∧
          (match checkSegment bytes with | some (.hello _ _) => false | some _ => true | none => false) = true :=
  ⟨⟨⟨rfl, rfl⟩, by decide +kernel, rfl⟩, by decide +kernel⟩

theorem test_witness_HelloWhileUpTellsOfAPeerRestart :
    (taking upState helloWord).atRest ∧ (taking upState helloWord).link.state = .up ∧
      (taking upState helloZero).noCommandOnTrunk ∧
      checkSegment helloZero = some (.hello false ⟨252#16, 8#16, 252#16, 252#16⟩) :=
  ⟨⟨rfl, rfl⟩, rfl, noCommandOnTrunk_of_ready _ rfl, by decide +kernel⟩

/-- UP with records that the limits of controlWord are equal to, 32767 ahead of, and 32768 ahead of, and one invalid. -/
def creditState : State :=
  taking { upState with link := { upLink with txCredit := ⟨some 252#16, some 32777#16, some 33024#16, none⟩ } } controlWord

theorem test_witness_ControlAdvancesTheCreditRecord :
    creditState.atRest ∧ checkSegment controlWord = some (.control ⟨252#16, 8#16, 256#16, 65535#16⟩) ∧
      creditState.link.state = .up ∧ creditState.link.txCredit.get 3 = none ∧
      creditState.link.txCredit.get 0 = some 252#16 ∧ (252#16 - 252#16 : Half).toNat = 0 ∧
      creditState.link.txCredit.get 1 = some 32777#16 ∧ (8#16 - 32777#16 : Half).toNat = 32767 ∧
      creditState.link.txCredit.get 2 = some 33024#16 ∧ (256#16 - 33024#16 : Half).toNat = 32768 ∧
      creditState.trunkTx.latch = none ∧ preempting.trunkTx.latch ≠ none := by
  refine ⟨⟨rfl, rfl⟩, ?_⟩; decide +kernel

/-- What wholeWord says. -/
def wholeData : RxData :=
  { kind := .whole, level := 3, tag := 4#8, seq := 43#16, stream := 21#16, length := 10
    payload := [0#8, 1#8, 2#8, 3#8, 4#8, 5#8, 6#8, 7#8, 8#8, 9#8] }

/-- UP with an expected number at L3. -/
def expecting (n : Half) : State := { upState with reasm := { stack := [], expected := some ⟨0#16, 0#16, 0#16, n⟩ } }

theorem test_witness_StaleSegmentIsDroppedAndCounted :
    (taking (expecting 32811#16) wholeWord).atRest ∧ checkSegment wholeWord = some (.data wholeData) ∧
      (taking (expecting 32811#16) wholeWord).link.state = .up ∧
      (wholeData.seq - (expecting 32811#16).expectedAt 3).toNat = 32768 ∧
      (wholeData.seq - (expecting 44#16).expectedAt 3).toNat = 65535 := by
  refine ⟨⟨rfl, rfl⟩, ?_⟩; decide +kernel

def zeros64 : List Byte := List.replicate 64 0#8

/-- The setting of an arriving data segment, from its parts. -/
theorem receives_taking (s : State) (bytes : List Byte) (d : RxData) (expected : Four Half) (h : s.atRest)
    (up : s.link.state = .up) (e : s.reasm.expected = some expected) (good : checkSegment bytes = some (.data d)) :
    (taking s bytes).receives d expected :=
  ⟨h, up, e, _, rfl, rfl, good⟩

/-- MIDDLE L0 #20 of tag 7. -/
def middleWord : List Byte := withCrc ([0x20#8, 7#8, 0#8, 20#8, 64#8] ++ zeros64)

def middleData : RxData :=
  { kind := .middle, level := 0, tag := 7#8, seq := 20#16, stream := 0#16, length := 0, payload := zeros64 }

theorem middleWord_good : checkSegment middleWord = some (.data middleData) := by decide +kernel

/-- A of 300 bytes at L0 and B of 150 bytes at L2, as they are open in 12.2. -/
def entryA : RxEntry := rxEntry 0 7#8 10#16 300 128 2 (some 10)
def entryB : RxEntry := rxEntry 2 3#8 20#16 150 128 2 (some 11)

/-- Frames open, with the free lists of the level part, an allotment and the expected number at L0. -/
def opened (stack : List RxEntry) (cells descs : List Nat) (allotment : Nat) (n : Half) : State :=
  { upState with
    link := { upLink with allotment := Four.all allotment }
    reasm := { stack := stack, expected := some ⟨n, 0#16, 42#16, 0#16⟩ }
    rxPool :=
      { upState.rxPool with
        levelPart := { freeCells := cells, freeDescs := descs }
        descs := [(10, rxDesc 0 10#16 300 [20, 21]), (11, rxDesc 2 20#16 150 [22, 23])] } }

/-- Nothing in use stands on the reserve's free list. -/
theorem reserveUnused_opened (stack : List RxEntry) (cells descs : List Nat) (allotment : Nat) (n : Half) :
    (opened stack cells descs allotment n).reserveUnused := by
  intro m hm
  change m ∈ [124, 125] at hm
  simp only [List.mem_cons, List.not_mem_nil, or_false] at hm
  rcases hm with rfl | rfl <;> rfl

/-- In sequence, one ahead and 32767 ahead; the frame at L0 on top and suspended, marked and not. -/
theorem test_witness_LossCheckMovesTheExpectedNumber :
    (∀ n, (taking (opened [] [] [] 252 n) middleWord).receives middleData ⟨n, 0#16, 42#16, 0#16⟩) ∧
      (∀ above e, (taking (opened (above ++ e :: []) [] [] 252 19#16) middleWord).receives middleData
        ⟨19#16, 0#16, 42#16, 0#16⟩) ∧
      (middleData.seq - 20#16).toNat = 0 ∧ (middleData.seq - 19#16).toNat = 1 ∧
      (middleData.seq - 32789#16).toNat = 32767 ∧ (∀ x ∈ [entryB] ++ [], x.level ≠ 0 ∧ 0 < x.level) ∧ entryA.level = 0 ∧
      entryA.tag = middleData.tag ∧
      ∀ n, (opened [entryB, entryA] [] [] 252 n).holdApart [entryA] ∧
        (opened [entryB, entryA] [] [] 252 n).holdApart [{ entryA with discarding := some .age }] := by
  refine ⟨fun n => receives_taking _ _ _ _ ⟨rfl, rfl⟩ rfl rfl middleWord_good,
    fun _ _ => receives_taking _ _ _ _ ⟨rfl, rfl⟩ rfl rfl middleWord_good, by decide, by decide, by decide, by decide, rfl,
    rfl, fun n => ?_⟩
  simp only [State.holdApart, opened]; decide +kernel

/-- START L2 #42, tag 0, stream 20, length 150. -/
def startWord : List Byte :=
  [0x12#8, 0#8, 0#8, 42#8, 64#8, 0#8, 20#8, 0#8, 150#8] ++ zeros64 ++ [0x58#8, 0x07#8]

def startData : RxData :=
  { kind := .start, level := 2, tag := 0#8, seq := 42#16, stream := 20#16, length := 150, payload := zeros64 }

set_option maxRecDepth 4096 in
theorem startWord_good : checkSegment startWord = some (.data startData) := by decide +kernel

/-- B goes and A stays, with room; then no frame goes, and there is no descriptor, no cell, or no allotment left. -/
theorem test_witness_StartOpensAndStoresAFrame :
    (taking (opened [entryB, entryA] [0] [1] 2 20#16) startWord).opensAt startData ⟨20#16, 0#16, 42#16, 0#16⟩ [entryB]
        [entryA] ⟨[0, 22, 23], [1, 11]⟩ 0 ∧
      (taking (opened [entryA] [0] [] 3 20#16) startWord).opensAt startData ⟨20#16, 0#16, 42#16, 0#16⟩ [] [entryA]
        ⟨[0], []⟩ 2 ∧
      (taking (opened [entryA] [] [1] 3 20#16) startWord).opensAt startData ⟨20#16, 0#16, 42#16, 0#16⟩ [] [entryA]
        ⟨[], [1]⟩ 2 ∧
      (taking (opened [entryA] [0] [1] 2 20#16) startWord).opensAt startData ⟨20#16, 0#16, 42#16, 0#16⟩ [] [entryA]
        ⟨[0], [1]⟩ 2 ∧
      (opened [entryB, entryA] [0] [1] 2 20#16).noNotices ∧
      ∀ cells descs allotment, (taking (opened [entryA] cells descs allotment 20#16) startWord).reserveUnused := by
  refine ⟨⟨receives_taking _ _ _ _ ⟨rfl, rfl⟩ rfl rfl startWord_good, ?_⟩,
    ⟨receives_taking _ _ _ _ ⟨rfl, rfl⟩ rfl rfl startWord_good, ?_⟩,
    ⟨receives_taking _ _ _ _ ⟨rfl, rfl⟩ rfl rfl startWord_good, ?_⟩,
    ⟨receives_taking _ _ _ _ ⟨rfl, rfl⟩ rfl rfl startWord_good, ?_⟩, rfl, ?_⟩
  iterate 4 (simp only [State.holdApart]; decide +kernel)
  exact fun cells descs allotment => reserveUnused_opened [entryA] cells descs allotment 20#16

/-- END L2 #42, tag 3, of 22 bytes. -/
def endWord : List Byte := withCrc ([0x32#8, 3#8, 0#8, 42#8, 22#8] ++ List.replicate 22 0#8)

def endData : RxData :=
  { kind := .end_, level := 2, tag := 3#8, seq := 42#16, stream := 0#16, length := 0, payload := List.replicate 22 0#8 }

theorem endWord_good : checkSegment endWord = some (.data endData) := by decide +kernel

/-- B's END finds an entry of B's level and descriptor on top, whatever its tag, mark, length and counts. -/
theorem continuesAt_end (e : RxEntry) (cells : List Nat) (allotment : Nat) (level : e.level = 2)
    (holds : e.descriptor = some 11) :
    (taking (opened [e, entryA] cells [1] allotment 20#16) endWord).continuesAt endData ⟨20#16, 0#16, 42#16, 0#16⟩ [] e
      [entryA] ⟨cells, [1]⟩ := by
  refine ⟨receives_taking _ _ _ _ ⟨rfl, rfl⟩ rfl rfl endWord_good, .inr rfl, rfl, rfl, nofun, level, by decide,
    ⟨rfl, ?_, ?_⟩, (List.append_nil _).symm, rfl⟩
  · simp [descsOf, holds]
  · intro x hx n hn
    obtain rfl : x = e := by simpa using hx
    obtain rfl : n = 11 := by simpa [holds] using hn.symm
    rw [level]
    exact ⟨show 11 ∉ [124, 125] by decide, rfl⟩

/-- A's MIDDLE finds A below B, whatever A's mark, length and counts. -/
theorem continuesAt_middle (e : RxEntry) (cells : List Nat) (level : e.level = 0) (holds : e.descriptor = some 10) :
    (taking (opened [entryB, e] cells [1] 252 20#16) middleWord).continuesAt middleData ⟨20#16, 0#16, 42#16, 0#16⟩
      [entryB] e [] ⟨cells ++ [22, 23], [1, 11]⟩ := by
  refine ⟨receives_taking _ _ _ _ ⟨rfl, rfl⟩ rfl rfl middleWord_good, .inl rfl, rfl, rfl, by decide, level, nofun,
    ⟨rfl, ?_, ?_⟩, rfl, rfl⟩
  · simp [descsOf, holds, entryB, rxEntry]
  · intro x hx n hn
    rcases List.mem_append.mp hx with h | h
    · obtain rfl : x = entryB := by simpa using h
      obtain rfl : n = 11 := by simpa [entryB, rxEntry] using hn.symm
      exact ⟨show 11 ∉ [124, 125] by decide, rfl⟩
    · obtain rfl : x = e := by simpa using h
      obtain rfl : n = 10 := by simpa [holds] using hn.symm
      rw [level]
      exact ⟨show 10 ∉ [124, 125] by decide, rfl⟩

theorem test_witness_OrphanIsCountedAndDropped :
    (taking (opened [entryA] [] [] 252 20#16) endWord).receives endData ⟨20#16, 0#16, 42#16, 0#16⟩ ∧
      (∀ e ∈ [entryA], e.level ≠ endData.level) ∧
      (taking (opened [] [] [] 252 20#16) middleWord).receives middleData ⟨20#16, 0#16, 42#16, 0#16⟩ ∧
      (∀ mark, (taking (opened [{ entryB with tag := 4#8, discarding := mark }, entryA] [] [1] 252 20#16) endWord).continuesAt
          endData ⟨20#16, 0#16, 42#16, 0#16⟩ [] { entryB with tag := 4#8, discarding := mark } [entryA] ⟨[], [1]⟩) ∧
      (4#8 : Byte) ≠ endData.tag ∧
      (taking (opened [entryB, { entryA with tag := 8#8 }] [] [1] 252 20#16) middleWord).continuesAt middleData
          ⟨20#16, 0#16, 42#16, 0#16⟩ [entryB] { entryA with tag := 8#8 } [] ⟨[] ++ [22, 23], [1, 11]⟩ ∧
      (8#8 : Byte) ≠ middleData.tag :=
  ⟨receives_taking _ _ _ _ ⟨rfl, rfl⟩ rfl rfl endWord_good, by decide,
    receives_taking _ _ _ _ ⟨rfl, rfl⟩ rfl rfl middleWord_good, fun _ => continuesAt_end _ _ _ rfl rfl, by decide,
    continuesAt_middle _ _ rfl rfl, by decide⟩

/-- The state with a Delivery Table, a mask for unknown streams, and S1 disabled. -/
def delivering (s : State) (table : List (Nat × DeliveryEntry)) : State :=
  { s with
    config :=
      { small.config with
        active :=
          { Bank.default with
            deliveries := table
            ports := Bank.default.ports.set 1 { PortSettings.default with enabled := false }
            part := { PartSettings.default with unknownMask := ⟨true, true, false, false⟩ } } } }

/-- Frames open above A, which stays, and wholeWord expected. -/
def wholeNext (stack : List RxEntry) (cells descs : List Nat) (allotment : Nat) : State :=
  let s := opened stack cells descs allotment 20#16
  { s with reasm := { s.reasm with expected := some ⟨20#16, 0#16, 42#16, 43#16⟩ } }

theorem wholeWord_good : checkSegment wholeWord = some (.data wholeData) := by decide +kernel

/-- A frame at L3 goes, with room; then none goes, and there is no descriptor, no cell, or no allotment left. -/
theorem test_witness_WholeFrameIsDelivered :
    (taking (delivering (wholeNext [rxEntry 3 1#8 20#16 150 64 1 none, entryB] [0] [1] 1) []) wholeWord).opensAt wholeData
        ⟨20#16, 0#16, 42#16, 43#16⟩ [rxEntry 3 1#8 20#16 150 64 1 none] [entryB] ⟨[0], [1]⟩ 0 ∧
      (taking (wholeNext [] [0] [] 1) wholeWord).opensAt wholeData ⟨20#16, 0#16, 42#16, 43#16⟩ [] [] ⟨[0], []⟩ 0 ∧
      (taking (wholeNext [] [] [1] 1) wholeWord).opensAt wholeData ⟨20#16, 0#16, 42#16, 43#16⟩ [] [] ⟨[], [1]⟩ 0 ∧
      (taking (wholeNext [] [0] [1] 0) wholeWord).opensAt wholeData ⟨20#16, 0#16, 42#16, 43#16⟩ [] [] ⟨[0], [1]⟩ 0 ∧
      wholeData.stream ≠ 65535#16 ∧ (delivering upState []).noNotices ∧ (delivering upState []).notQueued [1] ∧
      (∀ e ∈ (delivering upState []).config.active.deliveries.map (·.2), e.stream ≠ wholeData.stream) ∧
      (∃ e ∈ (delivering upState [(3, ⟨21#16, ⟨false, false, true, true⟩, some 900#16⟩)]).config.active.deliveries.map (·.2),
        e.stream = wholeData.stream) ∧
      (delivering upState []).portAccepts 0 1 = true ∧ (delivering upState []).portAccepts 1 1 = false ∧
      ∀ cells descs allotment, (taking (wholeNext [] cells descs allotment) wholeWord).reserveUnused := by
  refine ⟨⟨receives_taking _ _ _ _ ⟨rfl, rfl⟩ rfl rfl wholeWord_good, ?_⟩,
    ⟨receives_taking _ _ _ _ ⟨rfl, rfl⟩ rfl rfl wholeWord_good, ?_⟩,
    ⟨receives_taking _ _ _ _ ⟨rfl, rfl⟩ rfl rfl wholeWord_good, ?_⟩,
    ⟨receives_taking _ _ _ _ ⟨rfl, rfl⟩ rfl rfl wholeWord_good, ?_⟩, by decide, rfl, by simp only [State.notQueued]; decide,
    ?_⟩
  iterate 4 (simp only [State.holdApart]; decide +kernel)
  exact ⟨by decide +kernel, by decide +kernel, by decide +kernel, by decide +kernel,
    fun cells descs allotment => reserveUnused_opened [] cells descs allotment 20#16⟩

/-- A WHOLE of stream 65535 with a payload, and what it says. -/
def mgmtWord (payload : List Byte) : List Byte :=
  withCrc ([0x43#8, 4#8, 0#8, 43#8, BitVec.ofNat 8 payload.length, 0xFF#8, 0xFF#8, 0#8, BitVec.ofNat 8 payload.length] ++
    payload)

def mgmtData (payload : List Byte) : RxData :=
  { wholeData with stream := 65535#16, length := payload.length, payload := payload }

/-- A request; a reply under local tag 5 to command 6; and payloads too short, too short for a reply, of an unknown type. -/
def mgmtPayloads : List (List Byte) :=
  [[0#8, 9#8, 0#8, 1#8, 0#8, 41#8], [0#8, 5#8, 2#8, 6#8, 0#8], [0#8, 5#8], [0#8, 5#8, 2#8, 6#8], [0#8, 5#8, 3#8],
    [0#8, 5#8, 1#8, 6#8, 0#8]]

theorem mgmtWords_good : ∀ payload ∈ mgmtPayloads, checkSegment (mgmtWord payload) = some (.data (mgmtData payload)) := by
  decide +kernel

/-- A pending entry that a reply under the tag answers. -/
def peer (tag : Byte) : PeerEntry :=
  { localTag := tag, port := 1, originalTag := 0x0220#16, replyStream := 41#16, command := 6#8, deadline := 1000#32 }

/-- The payloads of stream 65535 arrive; the reply is answered second of three, or is late; each row of the drop reasons. -/
theorem test_witness_WholeFrameIsDelivered_management :
    (∀ payload ∈ mgmtPayloads,
      (taking (wholeNext [] [0] [1] 1) (mgmtWord payload)).opensAt (mgmtData payload) ⟨20#16, 0#16, 42#16, 43#16⟩ [] []
        ⟨[0], [1]⟩ 0) ∧
      (peer 5#8).answeredBy [0#8, 5#8, 2#8, 6#8, 0#8] ∧ ¬(peer 4#8).answeredBy [0#8, 5#8, 2#8, 6#8, 0#8] ∧
      upState.agent.requests.length < 4 ∧ upState.agent.peers = [] ∧ payloadRefused 0 [0#8, 5#8] 1 ∧
      payloadRefused 0 (List.replicate 257 2#8) 2 ∧ payloadRefused 0 [0#8, 5#8, 2#8, 6#8] 1 ∧
      payloadRefused 0 [0#8, 5#8, 3#8] 4 ∧ payloadRefused 0 [0#8, 5#8, 1#8, 6#8, 0#8] 1 ∧
      payloadRefused 4 [0#8, 9#8, 0#8, 1#8, 0#8, 41#8] 3 := by
  refine ⟨fun payload h => ⟨receives_taking _ _ _ _ ⟨rfl, rfl⟩ rfl rfl (mgmtWords_good payload h), ?_⟩, ?_⟩
  · refine ⟨rfl, rfl, nofun, nofun, ⟨rfl, List.nodup_nil, nofun⟩, rfl, rfl, rfl, fun n hn => ?_⟩
    obtain rfl : 1 = n := Option.some.inj hn
    exact ⟨show 1 ∉ [124, 125] by decide, .inr rfl⟩
  · simp only [PeerEntry.answeredBy, payloadRefused]; decide +kernel

/-- B is of stream 65535, its payload of a type. -/
def mgmtOpen (type : Byte) : State :=
  let s := opened [entryB, entryA] [0] [1] 252 20#16
  { s with
    rxPool :=
      { s.rxPool with
        descs :=
          [(11, { rxDesc 2 65535#16 150 [23] with
              chain := [⟨22, [0#8, 5#8, type, 6#8] ++ List.replicate 60 0#8⟩, ⟨23, List.replicate 64 0#8⟩] })] } }

/-- B's END completes a request, a reply and a frame of an unknown type. -/
theorem test_witness_EndCompletesTheOpenFrame_management :
    ∀ type : Byte,
      (taking (mgmtOpen type) endWord).continuesAt endData ⟨20#16, 0#16, 42#16, 0#16⟩ [] entryB [entryA] ⟨[0], [1]⟩ ∧
        entryB.bytesReceived + endData.payload.length = entryB.declaredLength ∧
        ((mgmtOpen type).rxPool.desc 11).map (·.stream) = some 65535#16 := by
  refine fun type => ⟨⟨receives_taking _ _ _ _ ⟨rfl, rfl⟩ rfl rfl endWord_good, .inr rfl, rfl, rfl, nofun, rfl, by decide,
    ⟨rfl, by decide, fun x hx n hn => ?_⟩, rfl, rfl⟩, by decide, rfl⟩
  obtain rfl : x = entryB := by simpa using hx
  obtain rfl : 11 = n := Option.some.inj hn
  exact ⟨show 11 ∉ [124, 125] by decide, rfl⟩

/-- Y of 12.1 before END L2: B open on top with 128 of its 150 bytes. -/
def beforeEnd : State := opened [entryB, entryA] [0, 1, 2] [0, 1] 252 20#16

/-- B's END with B marked, overrun by a byte or a segment, refused a cell, complete, or a byte short; A's MIDDLE below B with
A marked, overrun, refused, and stored. -/
theorem test_witness_EndCompletesTheOpenFrame :
    (∀ mark length segments, ∀ cells ∈ [[], [0]], ∀ allotment,
      (taking (opened [{ entryB with discarding := mark, declaredLength := length, segmentsReceived := segments }, entryA]
          cells [1] allotment 20#16) endWord).continuesAt endData ⟨20#16, 0#16, 42#16, 0#16⟩ []
        { entryB with discarding := mark, declaredLength := length, segmentsReceived := segments } [entryA] ⟨cells, [1]⟩) ∧
      (∀ mark length cells,
        (taking (opened [entryB, { entryA with discarding := mark, declaredLength := length }] cells [1] 252 20#16)
            middleWord).continuesAt middleData ⟨20#16, 0#16, 42#16, 0#16⟩ [entryB]
          { entryA with discarding := mark, declaredLength := length } [] ⟨cells ++ [22, 23], [1, 11]⟩) ∧
      entryB.tag = endData.tag ∧ entryA.tag = middleData.tag ∧ entryB.bytesReceived + endData.payload.length = 150 ∧
      entryA.bytesReceived + middleData.payload.length = 192 ∧
      beforeEnd.rxPool.desc 11 = some (rxDesc 2 20#16 150 [22, 23]) ∧
      beforeEnd.rxPool.desc 10 = some (rxDesc 0 10#16 300 [20, 21]) ∧ beforeEnd.heldCells 2 = 2 ∧
      (rxDesc 2 20#16 150 [22, 23]).stream ≠ 65535#16 ∧ beforeEnd.noNotices ∧ beforeEnd.notQueued [10, 11] ∧
      beforeEnd.reserveUnused := by
  refine ⟨fun _ _ _ _ _ _ => continuesAt_end _ _ _ rfl rfl, fun _ _ _ => continuesAt_middle _ _ rfl rfl, rfl, rfl,
    by decide, by decide, rfl, rfl, by decide, by decide, rfl, ?_, reserveUnused_opened [] [] [] 0 0#16⟩
  simp only [State.notQueued]; decide

/-- The state with the Transmit Pool's free lists replaced. -/
def withTxPool (s : State) (cells descs : List Nat) (reported : Bool) : State :=
  { s with txPool := { freeCells := cells, freeDescs := descs, exhaustionReported := reported } }

theorem test_witness_RiseClaimsADescriptor :
    small.atRest ∧ small.pins.frameValid.get 0 = false ∧ (small.sprs.get 0).state = .idle ∧
      small.txPool.freeDescs = [0, 1, 2] ∧ (withTxPool small [] [] true).txPool.freeDescs = [] ∧
      (withTxPool small [] [] true).txPool.exhaustionReported = true ∧
      (withTxPool small [] [] false).txPool.exhaustionReported = false ∧
      ((small.setSpr 0 (Spr.cleared .skipping)).sprs.get 0).state = .skipping := by
  refine ⟨⟨rfl, rfl⟩, ?_⟩; decide +kernel

/-- A frame in reception at S0 with frame-valid high. -/
def receiving (r : Spr) : State := (small.setFrameValid 0 true).setSpr 0 r

/-- A record with some bytes counted, a pair and cells. -/
def partial_ (count : Nat) (trailing : List Byte) (cells : List PoolCell) : Spr :=
  { Spr.cleared (.receiving 2) with byteCount := count, header := [0#8, 10#8, 6#8, 0#8], trailing := trailing, cells := cells }

theorem test_witness_StationByteIsTaken :
    (∀ r ∈ [partial_ 3 [] [], partial_ 4 [] [], partial_ 5 [1#8] [], partial_ 6 [1#8, 2#8] [],
        partial_ 6 [1#8, 2#8] [⟨5, List.replicate 63 0#8⟩], partial_ 1541 [1#8, 2#8] [⟨5, zeros64⟩],
        partial_ 1542 [1#8, 2#8] [⟨5, zeros64⟩]],
      (receiving r).pins.resetHeld = false ∧ (receiving r).agent.headReady = none ∧ (receiving r).pins.frameValid.get 0 = true ∧ (receiving r).sprs.get 0 = r ∧
        r.state = .receiving 2) ∧
      (receiving (Spr.cleared .skipping)).pins.frameValid.get 0 = true ∧ small.txPool.freeCells = [0, 1, 2, 3, 4, 5, 6, 7] ∧
      (withTxPool (receiving (partial_ 6 [1#8, 2#8] [])) [] [] false).txPool.freeCells = [] := by
  decide +kernel

/-- A record at its fall. -/
def fallen (count length : Nat) (long : Bool) (crc : Half) : Spr :=
  { Spr.cleared (.receiving 2) with
    byteCount := count, overlength := long, header := [0#8, 10#8] ++ halfBytes (BitVec.ofNat 16 length)
    trailing := [0x1D#8, 0x0F#8], crc := crc, cells := [⟨5, [7#8]⟩] }

def disabled (s : State) : State :=
  { s with
    config :=
      { s.config with
        active := { s.config.active with ports := s.config.active.ports.set 0 { PortSettings.default with enabled := false } } } }

theorem test_witness_FallDropsABadFrame :
    ((receiving (Spr.cleared .skipping)).sprs.get 0).state = .skipping ∧
      ((receiving (Spr.cleared (.dropping .noDescriptor))).sprs.get 0).state = .dropping .noDescriptor ∧
      ((receiving (Spr.cleared (.dropping .noBuffer))).sprs.get 0).state = .dropping .noBuffer ∧
      ((disabled (receiving (fallen 7 1 false 0#16))).config.active.ports.get 0).enabled = false ∧
      ((receiving (fallen 5 1 false 0#16)).config.active.ports.get 0).enabled = true ∧ (fallen 5 1 false 0#16).byteCount < 6 ∧
      6 ≤ (fallen 6 0 false 0#16).byteCount ∧ (halfAt (fallen 6 0 false 0#16).header 2).toNat = 0 ∧
      1536 < (halfAt (fallen 1542 1537 false 0#16).header 2).toNat ∧ (fallen 1542 1536 true 0#16).overlength = true ∧
      (fallen 8 1 false 0#16).byteCount ≠ (halfAt (fallen 8 1 false 0#16).header 2).toNat + 6 ∧
      (fallen 7 1 false 0#16).byteCount = (halfAt (fallen 7 1 false 0#16).header 2).toNat + 6 ∧
      (fallen 7 1 false 0#16).crc ≠ halfAt (fallen 7 1 false 0#16).trailing 0 := by
  decide +kernel

/-- A good frame of one byte of stream 10 at S0, under a Stream Table and a queue limit for L0. -/
def falling (table : List (Nat × StreamEntry)) (action : Action) (limit : Nat) : State :=
  { receiving (fallen 7 1 false 0x1D0F#16) with
    config :=
      { small.config with
        active :=
          { Bank.default with
            streams := table
            levels := Bank.default.levels.set 0 { LevelEntry.default 0 with txQueueLimit := limit }
            ports := Bank.default.ports.set 0 { PortSettings.default with defaultAction := action } } } }

def streamTen (m : MatchPort) : StreamEntry :=
  { matchPort := m, stream := 10#16, action := .forward, level := 0, atomic := true, trunkStream := some 11#16 }

theorem test_witness_FallClassifiesAUserFrame :
    goodFall (falling [] .forward 1) 0 (fallen 7 1 false 0x1D0F#16) 2 ∧ halfAt (fallen 7 1 false 0x1D0F#16).header 0 = 10#16 ∧
      goodFall (falling [(4, streamTen (.port 0)), (7, streamTen .any)] .drop 0) 0 (fallen 7 1 false 0x1D0F#16) 2 ∧
      (falling [(4, streamTen (.port 0)), (7, streamTen .any)] .drop 0).config.active.streams =
        [(4, streamTen (.port 0)), (7, streamTen .any)] ∧
      (∀ x ∈ (falling [(7, streamTen .any)] .drop 0).config.active.streams,
        ¬(x.2.matchPort = .port 0 ∧ x.2.stream = 10#16)) ∧
      (falling [] .forward 1).levelQueueCells 0 + 1 ≤ 1 ∧ 0 < (falling [] .forward 0).levelQueueCells 0 + 1 ∧
      (falling [] .forward 1).link.state ≠ .up ∧
      goodFall { falling [] .forward 1 with link := upLink } 0 (fallen 7 1 false 0x1D0F#16) 2 ∧
      (falling [] .forward 1).trunkTx.latch = none := by
  simp only [goodFall, State.atRest, State.running]; decide +kernel

/-- The Active bank of the second clause is kept, as that clause asks. -/
theorem test_witness_kept_bank_with_streams :
    (falling [(4, streamTen (.port 0)), (7, streamTen .any)] .drop 0).config.active.kept := by
  simp only [Bank.kept, StreamEntry.inRange, DeliveryEntry.inRange, LevelEntry.inRange]; decide +kernel

/-- A good management frame at S0 whose payload has a length and a type. -/
def managing (length : Nat) (type : Byte) : Spr :=
  { Spr.cleared (.receiving 2) with
    byteCount := length + 6, header := [0xFF#8, 0xFF#8] ++ halfBytes (BitVec.ofNat 16 length)
    trailing := [0x1D#8, 0x0F#8], crc := 0x1D0F#16
    cells := [⟨5, ([0#8, 0#8, type] ++ List.replicate (length - 3) 0#8).take length⟩] }

theorem test_witness_FallHandsAPayloadToTheAgent :
    (∀ c ∈ [(1, 0#8), (2, 0#8), (3, 0#8), (5, 1#8), (6, 0#8), (6, 2#8), (256, 1#8), (257, 0#8)],
      (receiving (managing c.1 c.2)).pins.resetHeld = false ∧ (receiving (managing c.1 c.2)).pins.frameValid.get 0 = true ∧
        (receiving (managing c.1 c.2)).sprs.get 0 = managing c.1 c.2 ∧
        ((receiving (managing c.1 c.2)).config.active.ports.get 0).enabled = true ∧
        (halfAt (managing c.1 c.2).header 2).toNat = c.1 ∧ (managing c.1 c.2).crc = halfAt (managing c.1 c.2).trailing 0 ∧
        halfAt (managing c.1 c.2).header 0 = 65535#16 ∧ (chainBytes (managing c.1 c.2).cells).length = c.1 ∧
        (3 ≤ c.1 → byteAt (chainBytes (managing c.1 c.2).cells) 2 = c.2)) ∧
      small.agent.requests.length < 4 ∧
      4 ≤ ({ small.agent with requests := List.replicate 4 (request 0#8 1#8 []) } : Agent).requests.length := by
  decide +kernel

/-- A segment in flight and nothing latched. -/
def sending (g : Segment) : State := { upState with trunkTx := { inFlight := some g, latch := none, lastHello := none, cutOff := false } }

def wholeC : DataSegment :=
  { kind := .whole, level := 3, tag := 0#8, seq := 0#16, index := 0, frame := txFrame 2 3 30#16 8 }

theorem test_witness_CompletionFreesTheFrameAndStartsTheLatch :
    (small.atRest ∧ small.trunkTx.inFlight = none) ∧
      ((sending (.data wholeC)).atRest ∧ (sending (.data wholeC)).trunkTx.inFlight = some (.data wholeC) ∧
        ∀ c a, (sending (.data wholeC)).agent.mode = .deferring c a → (Segment.data wholeC).replyDone ≠ some a) ∧
      preempting.trunkTx.latch ≠ none ∧ preempting.link.state = .up ∧ small.link.state ≠ .up ∧
      (List.range 63 ++ wholeC.frame.cells.map (·.number)).length = 64 ∧ (List.range 7 ++ [wholeC.frame.number]).length = 8 :=
  ⟨⟨⟨rfl, rfl⟩, rfl⟩, ⟨⟨rfl, rfl⟩, rfl, fun _ _ h => nomatch (show AgentMode.ready = _ from h)⟩, by decide, rfl, by decide,
    by decide, by decide⟩

/-- A is open with a next index and nothing waits; with credit at L0 or none. -/
def continuing (next : Nat) (credit : Option Half) : State :=
  { upState with
    link := { upLink with txCredit := Four.all credit }
    sched := { Scheduler.cold with stack := [txEntry (txFrame 0 0 10#16 300) next] } }

/-- Nothing waits: no frame may start. -/
theorem none_may_start (s : State) (h : s.sched.queues = Four.all []) (l : Level) : ¬s.mayStart l := by
  rintro ⟨full, -⟩
  rw [h] at full
  revert full; revert l; decide

theorem test_witness_SelectingAMiddleAdvancesTheTopEntry :
    (upState.link.controlDue = false ∧ (∀ l, ¬upState.mayStart l) ∧ upState.sched.stack = []) ∧
    (∀ next credit, (continuing next credit).link.controlDue = false ∧ (∀ l, ¬(continuing next credit).mayStart l) ∧
      (continuing next credit).sched.stack = [txEntry (txFrame 0 0 10#16 300) next] ∧
      (continuing next credit).trunkTx.latch = none) ∧
      (∀ next, (continuing next (some 1#16)).mayCarry 0 ∧ (continuing next (some 32767#16)).mayCarry 0 ∧
        ¬(continuing next (some 0#16)).mayCarry 0 ∧ ¬(continuing next none).mayCarry 0) ∧
      segmentCount (txFrame 0 0 10#16 300).frameLength = 5 := by
  refine ⟨⟨rfl, none_may_start _ rfl, rfl⟩, fun next credit => ⟨rfl, none_may_start _ rfl, rfl, rfl⟩,
    fun next => ⟨?_, ?_, ?_, ?_⟩, by decide⟩
  · exact ⟨1#16, rfl, show 1 ≤ (1#16 - 0#16 : Half).toNat by decide, show (1#16 - 0#16 : Half).toNat ≤ 32767 by decide⟩
  · exact
      ⟨32767#16, rfl, show 1 ≤ (32767#16 - 0#16 : Half).toNat by decide,
        show (32767#16 - 0#16 : Half).toNat ≤ 32767 by decide⟩
  · rintro ⟨limit, h, hl, -⟩
    obtain rfl : (0#16 : Half) = limit := Option.some.inj h
    exact absurd hl (show ¬1 ≤ (0#16 - 0#16 : Half).toNat by decide)
  · rintro ⟨limit, h, -, -⟩
    exact absurd h nofun

/-- A frame of some bytes waits at L3 over A, which is open at L0. -/
def waiting (length : Nat) : State :=
  { upState with
    sched :=
      { Scheduler.cold with
        queues := (Four.all []).set 3 [txFrame 2 3 30#16 length], stack := [txEntry (txFrame 0 0 10#16 300) 3] } }

theorem none_above_three : ∀ m : Level, ¬(3 : Level) < m := by decide

/-- A WHOLE of 1 and of 64 bytes, and a START of 65 and of 1536, over an open frame. -/
theorem test_witness_SelectingAWholeLeavesTheStack :
    ∀ n ∈ [1, 64, 65, 1536],
      (waiting n).link.controlDue = false ∧ (waiting n).mayStart 3 ∧ (∀ m, (3 : Level) < m → ¬(waiting n).mayStart m) ∧
        (waiting n).sched.queues.get 3 = [txFrame 2 3 30#16 n] ∧ (txFrame 2 3 30#16 n).frameLength = n ∧
        (waiting n).trunkTx.latch = none := by
  intro n _
  refine ⟨rfl, ⟨nofun, ⟨252#16, rfl, show 1 ≤ (252#16 - 0#16 : Half).toNat by decide,
    show (252#16 - 0#16 : Half).toNat ≤ 32767 by decide⟩, ?_⟩, fun m h => absurd h (none_above_three m), rfl, rfl, rfl⟩
  intro top below h
  obtain ⟨rfl, -⟩ := List.cons.inj (show [txEntry (txFrame 0 0 10#16 300) 3] = top :: below from h)
  exact ⟨by decide, rfl, rfl, by simp [waiting, txEntry]⟩

theorem test_witness_HandshakeTimersSendHellos :
    ((at_ small 10000#32).atRest ∧ (at_ small 10000#32).link.state = .down ∧
        (at_ small 10000#32).link.holdOff = some 10000#32 ∧ ((at_ small 10000#32).now - 10000#32).toNat < 2 ^ 31 ∧
        small.trunkTx.inFlight = none ∧ small.trunkTx.latch = none) ∧
      (at_ helloState 1000#32).atRest ∧ (at_ helloState 1000#32).link.state = .hello ∧
      (at_ helloState 1000#32).link.helloDeadline = some 1000#32 ∧
      ((at_ helloState 1000#32).now - 1000#32).toNat = 0 ∧
      ((at_ helloState 0x800003E7#32).now - 1000#32).toNat = 2 ^ 31 - 1 ∧ preempting.trunkTx.latch ≠ none := by
  refine ⟨⟨⟨rfl, rfl⟩, ?_⟩, ⟨rfl, rfl⟩, ?_⟩ <;> decide +kernel

/-- A and B are open in the Reassembler, two peer requests are pending, and the silence deadline is reached. -/
def silent : State :=
  at_ { beforeEnd with agent := { small.agent with peers := [peer 4#8, peer 5#8] } } 2000#32

theorem test_witness_SilenceTakesTheLinkDownAndSettlesFrames :
    silent.atRest ∧ silent.link.state = .up ∧ silent.link.silenceDeadline = some 2000#32 ∧
      (silent.now - 2000#32).toNat = 0 ∧ silent.noCommandOnTrunk ∧ silent.holdApart silent.reasm.stack ∧
      silent.noNotices ∧ silent.rxPool.reserve.freeDescs.Nodup ∧
      silent.agent.peers.length ≤ silent.rxPool.reserve.freeDescs.length ∧
      silent.agent.peers.length ≤ silent.rxPool.reserve.freeCells.length ∧
      ({ silent with rxPool := { silent.rxPool with reserve := ⟨[], []⟩ } } : State).rxPool.reserve.freeDescs = [] := by
  refine ⟨⟨rfl, rfl⟩, rfl, rfl, by decide, noCommandOnTrunk_of_ready _ rfl, ?_⟩
  simp only [State.holdApart, State.noNotices]; decide +kernel

/-- UP with an advance deadline at L1, whose limit of 8 is ahead of the last one by some cells. -/
def advancing (last : Half) : State :=
  { upState with
    link :=
      { upLink with
        allotment := ⟨252, 8, 252, 252⟩, lastAdvertised := ⟨some 252#16, some last, some 252#16, some 252#16⟩
        advanceDeadline := ⟨none, some 200#32, none, none⟩ } }

theorem test_witness_ControlFallsDueAndCarriesTheLimits :
    ((at_ upState 250#32).atRest ∧ (at_ upState 250#32).link.state = .up ∧
        (at_ upState 250#32).link.keepaliveDeadline = some 250#32 ∧ ((at_ upState 250#32).now - 250#32).toNat = 0 ∧
        upState.link.controlDue = false ∧ upState.trunkTx.latch = none ∧ upState.trunkTx.inFlight = none) ∧
      ((at_ (advancing 7#16) 200#32).atRest ∧ (advancing 7#16).link.state = .up ∧
        (advancing 7#16).link.advanceDeadline.get 1 = some 200#32 ∧ ((at_ (advancing 7#16) 200#32).now - 200#32).toNat = 0 ∧
        (advancing 7#16).link.lastAdvertised.get 1 = some 7#16 ∧
        ((advancing 7#16).computedLimit 1 - 7#16).toNat = 1 ∧
        ((advancing 32777#16).computedLimit 1 - 32777#16).toNat = 32767) ∧
      (upState.reasm.expected = some (Four.all 0#16) ∧ isAhead ((advancing 7#16).computedLimit 1) 7#16 ∧
        ¬isAhead (upState.computedLimit 0) 252#16) ∧
      (({ upState with link := { upLink with controlDue := true } } : State).link.controlDue = true ∧
        upState.trunkTx.latch = none) ∧
      (taking (opened [] [] [] 252 20#16) middleWord).receives middleData ⟨20#16, 0#16, 42#16, 0#16⟩ ∧
      preempting.trunkTx.latch ≠ none ∧ preempting.trunkTx.inFlight ≠ none := by
  refine ⟨⟨⟨rfl, rfl⟩, ?_⟩, ⟨⟨rfl, rfl⟩, ?_⟩, ?_, ?_, receives_taking _ _ _ _ ⟨rfl, rfl⟩ rfl rfl middleWord_good, ?_⟩ <;>
    first | decide +kernel | (simp only [isAhead]; decide +kernel)

theorem test_witness_SuspensionExpiryProtectsTheFrame :
    let e := { txEntry (txFrame 0 0 10#16 300) 3 with suspensionDeadline := some 100#32 }
    let above := txEntry (txFrame 1 2 20#16 150) 1
    let s : State := at_ { upState with sched := { Scheduler.cold with stack := [above, e] } } 100#32
    s.atRest ∧ s.sched.stack = [above] ++ e :: [] ∧ (∀ x ∈ [above] ++ [], x.frame.level ≠ 0) ∧ e.frame.level = 0 ∧
      (s.now - 100#32).toNat < 2 ^ 31 := by
  refine ⟨⟨rfl, rfl⟩, rfl, by decide, rfl, by decide⟩

theorem test_witness_AgeExpiryMarksTheFrame :
    (at_ beforeEnd 100000#32).atRest ∧ beforeEnd.reasm.stack = [entryB] ++ entryA :: [] ∧
      (∀ x ∈ [entryB] ++ [], x.level ≠ 0) ∧ entryA.ageDeadline = some 100000#32 ∧
      ((at_ beforeEnd 100000#32).now - 100000#32).toNat < 2 ^ 31 ∧ entryA.discarding = none ∧
      beforeEnd.rxPool.desc 10 = some (rxDesc 0 10#16 300 [20, 21]) ∧ (rxDesc 0 10#16 300 [20, 21]).cls = .level 0 := by
  refine ⟨⟨rfl, rfl⟩, ?_⟩; decide +kernel

theorem test_witness_PeerExpiryAnswersTheRequester :
    let s : State := at_ { upState with agent := { small.agent with peers := [peer 4#8] ++ peer 5#8 :: [peer 6#8] } } 1000#32
    s.atRest ∧ (∀ x ∈ [peer 4#8] ++ [peer 6#8], x.localTag ≠ (peer 5#8).localTag) ∧
      (s.now - (peer 5#8).deadline).toNat < 2 ^ 31 ∧ s.noNotices ∧ s.rxPool.reserve.freeDescs ≠ [] ∧
      s.rxPool.reserve.freeCells ≠ [] := by
  refine ⟨⟨rfl, rfl⟩, by decide, by decide, rfl, by decide, by decide⟩

/-- Copy-back runs, with a number of records held. -/
def copying (records : List EventRecord) : State :=
  { small with
    config := { small.config with generation := 9#16, copyBack := some 0#32 }
    events := { records := records, nextSeq := 40#16 } }

def ordinary : EventRecord :=
  { sequence := 1#16, time := 0#32, kind := .commitDone, subject := .none, stream := none, detail := 1#16 }

def lossOf (detail : Half) : EventRecord := { ordinary with kind := .eventsLost, detail := detail }

theorem test_witness_CopyBackEndsAndIsRecorded :
    (copying []).atRest ∧ (copying []).config.copyBack = some 0#32 ∧
      (copying (List.replicate 30 ordinary)).events.records.length < 31 ∧
      31 ≤ (copying (List.replicate 31 ordinary)).events.records.length ∧
      (∀ x ∈ (copying (List.replicate 31 ordinary)).events.records, x.kind ≠ .eventsLost) ∧
      31 ≤ (copying (List.replicate 31 ordinary ++ lossOf 65535#16 :: [])).events.records.length ∧
      (lossOf 65535#16).kind = .eventsLost ∧ (copying []).noNotices := by
  refine ⟨⟨rfl, rfl⟩, ?_⟩; simp only [State.noNotices]; decide +kernel

theorem test_witness_AcceptedRecordSendsANotice :
    let part := { PartSettings.default with noticeEnabled := true, noticeThreshold := Severity.info }
    let s : State :=
      { copying [] with config := { (copying []).config with active := { Bank.default with part := part } } }
    (s.atRest ∧ s.config.copyBack = some 0#32 ∧ s.events.records.length < 31 ∧ part = s.config.active.part ∧
        part.noticeEnabled = true ∧ part.noticeThreshold = .info ∧ s.agent.noticeLatch = false ∧
        s.rxPool.reserve.freeDescs ≠ [] ∧ s.rxPool.reserve.freeCells ≠ []) ∧
      (copying (List.replicate 30 ordinary)).events.records.length < 31 ∧
      (copying (List.replicate 31 ordinary)).events.records.length = 31 ∧
      (∀ x ∈ (copying (List.replicate 31 ordinary)).events.records, x.kind ≠ .eventsLost) ∧
      (∃ x ∈ (copying (List.replicate 31 ordinary ++ [lossOf 2#16])).events.records, x.kind = .eventsLost) ∧
      EventKind.commitDone.severity.code < Severity.warning.code ∧
      Severity.warning.code ≤ EventKind.linkDown.severity.code := by
  refine ⟨⟨⟨rfl, rfl⟩, rfl, by decide, rfl, rfl, rfl, rfl, by decide, by decide⟩, ?_⟩
  decide +kernel

theorem test_witness_TimerNotDueChangesNothing :
    small.agent.headReady = none ∧ upState.agent.headReady = none ∧ small.link.holdOff = some 10000#32 ∧ 2 ^ 31 ≤ (small.now - 10000#32).toNat ∧
      ((at_ small 0x80002710#32).now - 10000#32).toNat = 2 ^ 31 ∧ small.link.state ≠ .hello ∧ small.link.state ≠ .up ∧
      upState.link.advanceDeadline.get 0 = none ∧ small.sched.stack = [] ∧ small.reasm.stack = [] ∧
      small.agent.peers = [] ∧ small.config.copyBack = none := by
  decide +kernel

/-- A frame with some references is being sent at S0. -/
def egressing (cls : RxClass) (references : Nat) : State :=
  { upState with
    egress := (Four.all { queue := [], state := .idle }).set 0 { queue := [11, 12], state := .sending }
    rxPool :=
      { upState.rxPool with
        descs := [(11, { rxDesc 2 20#16 150 [22, 23] with cls := cls, holder := .egress, refCount := references })] } }

theorem test_witness_EgressSendsAndReleasesTheHead :
    (∀ c ∈ [RxClass.level 2, .reserve], ∀ k ∈ [1, 2],
      ((egressing c k).egress.get 0).state = .sending ∧ ((egressing c k).egress.get 0).queue = [11, 12] ∧
        ((egressing c k).rxPool.desc 11).isSome ∧ sparseRising (egressing c k).rxPool.descs = true ∧
        (egressing c k).agent.mode = .ready ∧ (egressing c k).agent.headReady = none ∧
        (egressing c k).pins.resetHeld = false) ∧
      (small.egress.get 0).queue = [] ∧ ((egressing .reserve 1).egress.get 0).queue ≠ [] ∧
      (chainBytes (rxDesc 2 20#16 128 [22, 23]).chain).length = (rxDesc 2 20#16 128 [22, 23]).length ∧
      (List.range 62 ++ (rxDesc 2 20#16 150 [22, 23]).chain.map (·.number)).length = 64 ∧ (List.range 7 ++ [11]).length = 8 := by
  decide +kernel

/-! The management statements: the request at the head, with arguments at the ends of their ranges. -/

/-- The state with no descriptor free in the management reserve. -/
def noReserve (s : State) : State := { s with rxPool := { s.rxPool with reserve := { freeCells := [], freeDescs := [] } } }

/-- The request is at the head of two states: the reserve can grant the longest reply in the one, none in the other. -/
def readyFor (s : State) (command : Byte) (args : List Byte) : Prop :=
  ((asked s 0#8 command args).hasAtHead (request 0#8 command args) 1 command ∧
      (asked s 0#8 command args).reserveGrants 256) ∧
    (asked (noReserve s) 0#8 command args).hasAtHead (request 0#8 command args) 1 command ∧
      ∀ bytes, ¬(asked (noReserve s) 0#8 command args).reserveGrants bytes

theorem readyFor_small (command : Byte) (args : List Byte) : readyFor small command args :=
  ⟨⟨⟨rfl, rfl, rfl, rfl, rfl, rfl⟩, by simp [asked, small], by simp [asked, small, cellsFor]⟩,
    ⟨rfl, rfl, rfl, rfl, rfl, rfl⟩, fun _ h => h.1 rfl⟩

/-- A request refused with a status while no row of the table names it: an unknown command, an argument outside its codes, no
argument. -/
def unnamed : List (Byte × List Byte × Status) :=
  [(0#8, [], .malformed), (12#8, [1#8], .malformed), (255#8, [], .malformed), (10#8, [], .malformed), (11#8, [], .malformed),
    (10#8, [0#8], .range), (10#8, [4#8], .range), (11#8, [0#8], .range), (11#8, [3#8], .range)]

theorem unnamed_refused : ∀ x ∈ unnamed, (request 0#8 x.1 x.2.1).refusedUnnamed x.2.2 := by
  simp only [unnamed, List.forall_mem_cons]
  refine ⟨⟨rfl, .inl ?_⟩, ⟨rfl, .inl ?_⟩, ⟨rfl, .inl ?_⟩, ⟨rfl, .inr (.inl ?_)⟩, ⟨rfl, .inr (.inl ?_)⟩,
    ⟨rfl, .inr (.inr ⟨0#8, ?_⟩)⟩, ⟨rfl, .inr (.inr ⟨4#8, ?_⟩)⟩, ⟨rfl, .inr (.inr ⟨0#8, ?_⟩)⟩, ⟨rfl, .inr (.inr ⟨3#8, ?_⟩)⟩,
    nofun⟩ <;> decide

theorem test_witness_StatusReportsTheBlock : readyFor small 1#8 [] := readyFor_small _ _

theorem test_witness_ReadEntriesReturnsTheBank :
    readyFor small 2#8 [1#8, 0#8, 1#8, 0xFF#8] ∧ readyFor small 2#8 [1#8, 1#8, 1#8, 0xFF#8, 16#8] ∧
      tableOfCode 0#8 = none ∧ tableOfCode 5#8 = some .part ∧ tableOfCode 6#8 = none ∧ (halfOf 1#8 0xFF#8).toNat < 512 ∧
      Table.size .streams = 512 ∧ small.config.copyBack = none :=
  ⟨readyFor_small _ _, readyFor_small _ _, rfl, rfl, rfl, by decide, rfl, rfl⟩

/-- Arguments of a WRITE ENTRY. -/
def writing (code : Byte) (i : Nat) (content : List Byte) : List Byte :=
  code :: halfBytes (BitVec.ofNat 16 i) ++ content

def deliveryTen : DeliveryEntry := { stream := 10#16, portMask := ⟨true, false, true, true⟩, egressStream := some 900#16 }

/-- Each table at its last index and one past it, an unknown table, entries as written and entries that fail check 4. -/
theorem test_witness_WritesReachTheShadowBankAlone :
    (∀ code i content, readyFor small 3#8 (writing code i content)) ∧
      (∀ x ∈ [(1, 511, 512, 8), (2, 511, 512, 6), (3, 3, 4, 12), (4, 3, 4, 4), (5, 0, 1, 10)],
        tableShape x.1 x.2.2.1 x.2.2.2 ∧ x.2.1 < x.2.2.1 ∧ (halfAt (writing 1#8 x.2.1 []) 1).toNat = x.2.1 ∧
          (halfAt (writing 1#8 x.2.2.1 []) 1).toNat = x.2.2.1) ∧
      tableShape 0 0 0 ∧ tableShape 6 0 0 ∧
      ((streamTen .any).writtenAs (streamBytes (some (streamTen .any))) ∧
        ¬streamInvalid (streamBytes (some (streamTen .any))) ∧
        streamInvalid [0x80#8, 4#8, 0#8, 0#8, 0#8, 1#8, 0#8, 0#8] ∧ ¬streamInvalid [0x80#8, 3#8, 3#8, 0#8, 0#8, 1#8, 1#8, 1#8]) ∧
      (deliveryTen.writtenAs (deliveryBytes (some deliveryTen)) ∧ ¬deliveryInvalid (deliveryBytes (some deliveryTen)) ∧
        deliveryInvalid [0x80#8, 16#8, 0#8, 1#8, 0#8, 0#8]) ∧
      ((LevelEntry.default 0).writtenAs (levelBytes (LevelEntry.default 0)) ∧
        ¬levelInvalid (levelBytes (LevelEntry.default 0)) ∧
        levelInvalid (levelBytes { LevelEntry.default 0 with maxSuspension := 99 })) ∧
      (PortSettings.default.writtenAs (portBytes PortSettings.default) ∧ ¬portInvalid (portBytes PortSettings.default) ∧
        portInvalid (portBytes { PortSettings.default with egressLimit := 1025 })) ∧
      (PartSettings.default.writtenAs (partBytes PartSettings.default) ∧ ¬partInvalid (partBytes PartSettings.default) ∧
        partInvalid (partBytes { PartSettings.default with peerTimeout := 1001 })) ∧
      readyFor small 4#8 [] ∧ readyFor small 4#8 [5#8] ∧ readyFor small 4#8 [6#8] ∧ small.config.copyBack = none ∧
      (copying []).config.copyBack.isSome = true := by
  refine ⟨fun _ _ _ => readyFor_small _ _, ?_, ?_, ?_, ?_, ?_, ?_, ?_, ?_, readyFor_small _ _, readyFor_small _ _,
    readyFor_small _ _, rfl, rfl⟩ <;>
    simp only [tableShape, StreamEntry.writtenAs, streamInvalid, DeliveryEntry.writtenAs, deliveryInvalid,
      LevelEntry.writtenAs, levelInvalid, PortSettings.writtenAs, portInvalid, PartSettings.writtenAs, partInvalid] <;>
    decide +kernel

theorem test_witness_CommitSwapsTheBanks :
    readyFor small 5#8 [0#8] ∧ readyFor small 5#8 [0#8, 0#8] ∧ readyFor small 5#8 [0xFF#8, 0xFF#8] ∧ small.config.copyBack = none ∧
      small.config.shadow.allotmentSum = 1008 ∧
      1008 < ({ small.config.shadow with
          levels := small.config.shadow.levels.set 1 { LevelEntry.default 1 with rxAllotment := 253 } } : Bank).allotmentSum ∧
      nextGeneration 65534#16 = 0#16 ∧ nextGeneration 65533#16 = 65534#16 :=
  ⟨readyFor_small _ _, readyFor_small _ _, readyFor_small _ _, rfl, by decide, by decide, rfl, by decide⟩

theorem test_witness_ReadCountersReturnsAndClearsOneGroup :
    ∀ args ∈ [[0#8, 0#8, 0#8, 0#8], [1#8, 0#8, 3#8, 1#8], [1#8, 0#8, 4#8, 0#8], [2#8, 0#8, 3#8, 1#8], [3#8, 0#8, 0#8, 1#8],
        [4#8, 0#8, 0#8, 0#8], [5#8, 1#8, 0xFF#8, 1#8], [5#8, 2#8, 0#8, 0#8], [6#8, 0#8, 0#8, 0#8], [3#8, 0#8, 0#8, 2#8]],
      readyFor small 6#8 args ∧ readyFor small 6#8 (args.take 3) ∧ 4 ≤ args.length := by
  intro args h
  refine ⟨readyFor_small _ _, readyFor_small _ _, ?_⟩
  revert h; revert args; decide

theorem test_witness_EventsAreReadAndAcknowledged :
    (∀ args, readyFor small 7#8 args) ∧ (∀ args, readyFor small 8#8 args) ∧ small.events.records.length = 1 :=
  ⟨fun _ => readyFor_small _ _, fun _ => readyFor_small _ _, rfl⟩

theorem test_witness_FlushEmptiesOneLevelQueue :
    readyFor small 9#8 [] ∧ readyFor small 9#8 [3#8] ∧ readyFor small 9#8 [4#8] ∧ (waiting 8).sched.queues.get 3 ≠ [] :=
  ⟨readyFor_small _ _, readyFor_small _ _, readyFor_small _ _, by decide⟩

/-- A command awaits the reply that is being sent at S0, or one on the trunk. -/
def awaiting (c : DeferredCommand) (a : AwaitedReply) : State :=
  { egressing .reserve 1 with agent := { small.agent with mode := .deferring c a } }

/-- A request that arrived from the trunk in link generation 1, at the head of the queue. -/
def trunkRequest (type command : Byte) (args : List Byte) : Request :=
  { source := .trunk 1#16, payload := [2#8, 0x20#8, type, command, 0#8, 41#8] ++ args }

def askedByTrunk (s : State) (r : Request) (permitted : Bool) : State :=
  { s with
    agent := { s.agent with requests := [r] }
    config :=
      { s.config with
        active := { s.config.active with part := { PartSettings.default with remoteMgmt := permitted } } } }

/-- The link is UP with room for a reply of 56 result bytes, on an idle line and behind a latched segment. -/
theorem trunkReplyReady_up (s : State) (h : s ∈ [upState, preempting]) (r : Request) (permitted : Bool) (k : Nat)
    (hk : k ≤ 56) : (askedByTrunk s r permitted).trunkReplyReady 1#16 0 k := by
  have room : cellsFor (5 + k) ≤ 8 := by
    show (5 + k + 63) / 64 ≤ 8
    omega
  simp only [List.mem_cons, List.not_mem_nil, or_false] at h
  rcases h with rfl | rfl <;> exact ⟨rfl, rfl, rfl, room⟩

theorem hasTrunkRequest_up (s : State) (h : s ∈ [upState, preempting]) (type command : Byte) (args : List Byte)
    (permitted : Bool) :
    (askedByTrunk s (trunkRequest type command args) permitted).hasTrunkRequest (trunkRequest type command args)
      1#16 := by
  simp only [List.mem_cons, List.not_mem_nil, or_false] at h
  rcases h with rfl | rfl <;> exact ⟨rfl, rfl, rfl, rfl⟩

/-- On an idle line the reply to a STATUS from the trunk, of 61 bytes, is in flight at once as a WHOLE; behind a
latched segment it waits in its queue. -/
theorem test_trunk_reply_starts_on_an_idle_line :
    see .status (askedByTrunk upState (trunkRequest 0#8 1#8 []) true)
        (fun t => (segmentView t.trunkTx.inFlight, t.trunkTx.latch.isNone, (t.sched.queues.get 3).length)) =
        some (some (.whole, 3, 0#16, 0), true, 0) ∧
      see .status (askedByTrunk preempting (trunkRequest 0#8 1#8 []) true)
        (fun t => (segmentView t.trunkTx.inFlight, t.trunkTx.latch.isNone, (t.sched.queues.get 3).length)) =
        some (some (.middle, 0, 1#16, 1), false, 1) := by decide +kernel

/-- The last segment of a trunk reply, in flight. -/
def replyC (kind : DataKind) : DataSegment :=
  { wholeC with kind := kind, frame := { wholeC.frame with origin := .trunkReply } }

/-- The LINK CONTROL and RESTART commands with their codes, arguments and deferred commands. -/
def deferrable : List (Instr × Byte × Byte × DeferredCommand) :=
  [(.linkControlDrop, 10#8, 1#8, .linkControl .drop), (.linkControlHold, 10#8, 2#8, .linkControl .hold),
    (.linkControlRelease, 10#8, 3#8, .linkControl .release), (.trafficRestart, 11#8, 1#8, .restart .traffic),
    (.fullRestart, 11#8, 2#8, .restart .full)]

theorem test_witness_CommandsWaitForTheirReply :
    (∀ x ∈ deferrable,
      namesRequest x.1 (request 0#8 x.2.1 [x.2.2.1]) ∧ namesRequest x.1 (trunkRequest 0#8 x.2.1 [x.2.2.1]) ∧
        deferredBy x.1 = some x.2.2.2 ∧
        ((awaiting x.2.2.2 (.station 0 11)).egress.get 0).state = .sending ∧
        ((awaiting x.2.2.2 (.station 0 11)).egress.get 0).queue = 11 :: [12] ∧
        (awaiting x.2.2.2 (.station 0 11)).agent.mode = .deferring x.2.2.2 (.station 0 11)) ∧
      (∀ command args, readyFor small command args ∧ (asked small 0#8 command args).pending = [] ∧
        (asked (noReserve small) 0#8 command args).pending = []) ∧
      (∀ x ∈ unnamed, (request 0#8 x.1 x.2.1).refusedUnnamed x.2.2) ∧
      (∀ s ∈ [upState, preempting], ∀ command args,
        (askedByTrunk s (trunkRequest 0#8 command args) true).hasTrunkRequest (trunkRequest 0#8 command args) 1#16 ∧
          (askedByTrunk s (trunkRequest 0#8 command args) true).trunkReplyReady 1#16 0 0) ∧
      upState.trunkTx.latch = none ∧ preempting.trunkTx.latch ≠ none ∧ small.link.state ≠ .up ∧
      (∀ r, (askedByTrunk (withTxPool upState [0] [] false) r true).poolShort 5 ∧
        (askedByTrunk (withTxPool upState [] [0] false) r true).poolShort 5 ∧
        (askedByTrunk (withTxPool upState [] [] true) r true).poolShort 5) ∧
      ∀ c, ∀ kind ∈ [DataKind.end_, .whole],
        let s : State :=
          { sending (.data (replyC kind)) with agent := { small.agent with mode := .deferring c (.trunk 2) } }
        s.running ∧ s.trunkTx.inFlight = some (.data (replyC kind)) ∧ (replyC kind).frame.origin = .trunkReply ∧
          s.agent.mode = .deferring c (.trunk (replyC kind).frame.number) := by
  refine ⟨?_, fun _ _ => ⟨readyFor_small _ _, rfl, rfl⟩, unnamed_refused,
    fun s h _ _ => ⟨hasTrunkRequest_up s h _ _ _ _, trunkReplyReady_up s h _ _ 0 (by omega)⟩, rfl, by decide, by decide,
    fun _ => ⟨.inl rfl, .inr (show (0 : Nat) < 1 by decide), .inl rfl⟩, fun c kind _ => ⟨rfl, rfl, rfl, rfl⟩⟩
  simp only [namesRequest, deferrable, List.forall_mem_cons]
  refine ⟨?_, ?_, ?_, ?_, ?_, nofun⟩ <;> exact ⟨⟨rfl, rfl, rfl⟩, ⟨rfl, rfl, rfl⟩, rfl, rfl, rfl, rfl⟩

/-- A command awaits a trunk reply on an UP link with 15 errors, and a segment is in reception. -/
def awaitingTrunk (c : DeferredCommand) (bytes : List Byte) : State :=
  taking { awaiting c (.trunk 2) with link := { upLink with errorBudget := 15 } } bytes

/-- Each DOWN event that no command brings, at its boundary, while a command awaits a trunk reply. -/
theorem test_witness_CommandsWaitForTheirReply_down (c : DeferredCommand) :
    ((awaitingTrunk c []).running ∧ (awaitingTrunk c []).agent.mode = .deferring c (.trunk 2)) ∧
      (awaitingTrunk c []).goesDownBy .lineSignalLoss .signal { upLink with errorBudget := 15, signal := false } ∧
      (at_ (awaitingTrunk c []) 2000#32).goesDownBy .silenceDeadlineExpiry .silence { upLink with errorBudget := 15 } ∧
      (∀ i ∈ [Instr.segmentReceptionEnd .startDelimiter, .startDelimiterArrival],
        (awaitingTrunk c wholeWord).goesDownBy i .errorRate { upLink with errorBudget := 16, goodRun := 0 }) ∧
      (awaitingTrunk c [1#8]).goesDownBy (.segmentReceptionEnd .endDelimiter) .errorRate
        { upLink with errorBudget := 16, goodRun := 0 } ∧
      (awaitingTrunk c helloZero).goesDownBy (.segmentReceptionEnd .endDelimiter) .peerRestart
        { upLink with errorBudget := 15, goodRun := 1 } := by
  refine ⟨⟨rfl, rfl⟩, .inl ⟨rfl, rfl, rfl, nofun, rfl⟩,
    .inr (.inl ⟨rfl, rfl, rfl, ⟨2000#32, rfl, (by decide : (2000#32 - 2000#32 : Time).toNat < 2 ^ 31)⟩, rfl⟩), ?_,
    .inr (.inr ⟨_, .endDelimiter, rfl, rfl, .inl rfl, .inl ⟨rfl, .inr (.inr (by decide +kernel)), Nat.le_refl 15, rfl⟩⟩),
    .inr (.inr ⟨_, .endDelimiter, rfl, rfl, .inl rfl,
      .inr ⟨rfl, rfl, rfl, ⟨_, (by decide +kernel : checkSegment helloZero = some (.hello false ⟨252#16, 8#16, 252#16, 252#16⟩))⟩, rfl⟩⟩)⟩
  simp only [List.forall_mem_cons]
  exact ⟨.inr (.inr ⟨_, .startDelimiter, rfl, rfl, .inl rfl, .inl ⟨rfl, .inl (by decide), Nat.le_refl 15, rfl⟩⟩),
    .inr (.inr ⟨_, .startDelimiter, rfl, rfl, .inr ⟨rfl, rfl⟩, .inl ⟨rfl, .inl (by decide), Nat.le_refl 15, rfl⟩⟩), nofun⟩

/-- A TRAFFIC restart that awaits a trunk reply is taken at the loss of the line signal, after LINK_DOWN; at the 16th error a
start delimiter begins the next segment after it. -/
theorem test_restart_is_taken_at_the_down_event :
    see .lineSignalLoss (awaitingTrunk (.restart .traffic) [])
        (fun t => (t.agent.mode, t.link.lastCause, t.time.lastCause, t.events.records.map (·.kind))) =
        some (.ready, .restart, .trafficRestart, [.restart, .linkDown, .restart]) ∧
      see .startDelimiterArrival (awaitingTrunk (.restart .traffic) wholeWord)
        (fun t => (t.agent.mode, t.link.lastCause, t.reception, t.events.records.map (·.kind))) =
        some (.ready, .restart, some { bytes := [], overlength := false }, [.restart, .linkDown, .restart]) := by
  decide +kernel

theorem test_witness_LinkControlActsOnTheLink :
    (∀ a ∈ [1#8, 2#8, 3#8], ∀ s ∈ [small, upState, helloState, { small with link := { small.link with held := true } }],
      (asked (noReserve s) 0#8 10#8 [a]).agent.requests.head? = some (request 0#8 10#8 [a]) ∧
        (asked (noReserve s) 0#8 10#8 [a]).pins.resetHeld = false ∧ (asked (noReserve s) 0#8 10#8 [a]).agent.mode = .ready ∧
        (request 0#8 10#8 [a]).args.head? = some a ∧ (noReserve s).rxPool.reserve.freeDescs = []) ∧
      ∀ s, ¬(asked (noReserve s) 0#8 10#8 [1#8]).reserveGrants 5 := by
  refine ⟨?_, fun _ h => h.1 rfl⟩
  decide +kernel

theorem test_witness_RestartsClearTheirBlocks :
    (∀ a ∈ [1#8, 2#8],
      (asked (noReserve upState) 0#8 11#8 [a]).hasAtHead (request 0#8 11#8 [a]) 1 11#8 ∧
        (request 0#8 11#8 [a]).args.head? = some a ∧ ¬(asked (noReserve upState) 0#8 11#8 [a]).reserveGrants 5) ∧
      (noReserve upState).agent.peers = [] ∧ (noReserve upState).noNotices :=
  ⟨fun _ _ => ⟨⟨rfl, rfl, rfl, rfl, rfl, rfl⟩, rfl, fun h => h.1 rfl⟩, rfl, rfl⟩

/-- No entry, four, three, and one that holds the next local tag; the Transmit Pool short of a descriptor, of cells, of both. -/
theorem test_witness_PeerRequestIsForwarded :
    (∀ s ∈ [small, upState, noReserve upState, withTxPool upState [0] [] false, withTxPool upState [] [0] false,
        withTxPool upState [] [] true, { upState with agent := { small.agent with peers := [peer small.agent.nextLocalTag] } },
        { upState with agent := { small.agent with peers := [peer 0#8, peer 1#8, peer 2#8, peer 3#8] } },
        { upState with agent := { small.agent with peers := [peer 0#8, peer 1#8, peer 2#8] } }],
      (asked s 1#8 6#8 [4#8]).pins.resetHeld = false ∧ (asked s 1#8 6#8 [4#8]).agent.mode = .ready ∧
        (asked s 1#8 6#8 [4#8]).agent.requests.head? = some (request 1#8 6#8 [4#8]) ∧
        s.config.active.part.noticeEnabled = false) ∧
      (request 1#8 6#8 [4#8]).type = 1#8 ∧ small.link.state ≠ .up ∧ upState.link.state = .up ∧
      upState.txPool.freeDescs = 0 :: [1, 2] ∧ cellsFor (request 1#8 6#8 [4#8]).payload.length = 1 ∧
      6 ≤ (request 1#8 6#8 [4#8]).payload.length ∧ upState.trunkTx.latch = none ∧ preempting.trunkTx.latch ≠ none ∧
      ∀ free ∈ [([0], []), ([], [0]), ([], [])], (withTxPool upState free.1 free.2 false).poolShort 7 := by
  simp only [State.poolShort]; decide +kernel

/-- The request-locals that are not deferred, by their codes. -/
def localCommands : List (Instr × Byte) :=
  [(.status, 1#8), (.readEntries, 2#8), (.writeEntry, 3#8), (.clearShadow, 4#8), (.commit, 5#8), (.readCounters, 6#8),
    (.readEvents, 7#8), (.ackEvents, 8#8), (.flushLevel, 9#8)]

theorem test_witness_TrunkRequestsAreAnsweredOverTheTrunk :
    (∀ s ∈ [upState, preempting], ∀ type command args permitted,
      (askedByTrunk s (trunkRequest type command args) permitted).hasTrunkRequest (trunkRequest type command args) 1#16 ∧
        (askedByTrunk s (trunkRequest type command args) permitted).trunkReplyReady 1#16 0 0 ∧
        (askedByTrunk s (trunkRequest type command args) permitted).trunkReplyReady 1#16 0 56) ∧
      (∀ type command args permitted,
        (askedByTrunk upState (trunkRequest type command args) permitted).config.active.part.remoteMgmt = permitted ∧
          (askedByTrunk upState (trunkRequest type command args) permitted).pending = [] ∧
          (trunkRequest type command args).type = type) ∧
      (∀ x ∈ localCommands, ∀ args, namesRequest x.1 (trunkRequest 0#8 x.2 args) ∧ deferredBy x.1 = none) ∧
      (∀ x ∈ unnamed, (trunkRequest 0#8 x.1 x.2.1).refusedUnnamed x.2.2) ∧
      (∀ r permitted bytes, (askedByTrunk (withTxPool upState [0] [] false) r permitted).poolShort bytes) ∧
      upState.rxPool.reserve.freeDescs ≠ [] ∧ 4 ≤ upState.rxPool.reserve.freeCells.length ∧ small.link.state ≠ .up := by
  refine ⟨fun s h _ _ _ _ => ⟨hasTrunkRequest_up s h _ _ _ _, trunkReplyReady_up s h _ _ 0 (by omega),
    trunkReplyReady_up s h _ _ 56 (by omega)⟩, fun _ _ _ _ => ⟨rfl, rfl, rfl⟩, ?_, unnamed_refused,
    fun _ _ _ => .inl rfl, by decide, by decide, by decide⟩
  simp only [namesRequest, localCommands, List.forall_mem_cons]
  refine ⟨?_, ?_, ?_, ?_, ?_, ?_, ?_, ?_, ?_, nofun⟩ <;> exact fun _ => ⟨⟨rfl, rfl⟩, rfl⟩

/-! The invariants: a state with frames in every place meets each of them. -/

theorem test_witness_EveryStepKeepsTheEventQueue :
    ({ records := [{ ordinary with sequence := 65535#16 }, { lossOf 3#16 with sequence := 0#16 }], nextSeq := 1#16 } :
      EventQueue).kept := by
  refine ⟨by decide, by decide, by decide, ?_⟩
  intro i h
  match i, h with
  | 0, _ => rfl
  | 1, _ => rfl

theorem test_witness_EveryStepKeepsTheConfiguration : (copying []).config.kept := by
  simp only [ConfigStore.kept, Bank.kept, StreamEntry.inRange, DeliveryEntry.inRange, LevelEntry.inRange]; decide +kernel

theorem test_witness_EveryStepKeepsTheLinkConsistent :
    (upState.quietUnlessUp ∧ upState.link.recordsFit ∧ upState.lineFits) ∧
      helloState.quietUnlessUp ∧ helloState.link.recordsFit ∧ helloState.lineFits := by
  refine ⟨⟨fun h => absurd rfl h, ?_, ?_⟩, fun _ => ⟨rfl, rfl, trivial, trivial, rfl⟩, ?_, ?_⟩ <;>
    simp only [LinkController.recordsFit, State.lineFits] <;> decide +kernel

theorem test_witness_EveryStepKeepsTheNesting : preempting.stacksKept ∧ beforeEnd.stacksKept := by
  simp only [State.stacksKept, txStackKept, rxStackKept]; decide +kernel

theorem test_witness_EveryStepKeepsTheAgentsBounds :
    (asked { small with agent := { small.agent with peers := [peer 0#8, peer 1#8] } } 0#8 1#8 []).agent.kept := by
  simp only [Agent.kept]; decide +kernel

/-- One cell and one descriptor of each part in use. -/
def usedPool : RxPool :=
  { levelPart := { freeCells := List.range' 1 1007, freeDescs := List.range' 1 123 }
    reserve := { freeCells := List.range' 1009 15, freeDescs := List.range' 125 3 }
    descs := [(0, rxDesc 2 20#16 64 [0]), (124, { rxDesc 0 0#16 64 [1008] with cls := .reserve })]
    exhaustionReported := false }

/-- Numbers of a list whose first is in use. -/
theorem first_in_use (first count : Nat) : (List.range' (first + 1) count ++ [first]).Perm (List.range' first (count + 1)) := by
  rw [List.range'_succ]; exact List.perm_append_comm

theorem test_witness_EveryStepKeepsTheReceivePool : usedPool.kept := by
  refine ⟨rfl, ?_, ?_, first_in_use 1008 15, first_in_use 124 3⟩
  · rw [List.range_eq_range']; exact first_in_use 0 1007
  · rw [List.range_eq_range']; exact first_in_use 0 123

/-- One frame waits at L3; every other cell and descriptor is free. -/
theorem test_witness_EveryStepKeepsTheTransmitPool :
    (withTxPool { small with sched := { Scheduler.cold with queues := (Four.all []).set 3 [txFrame 0 3 30#16 8] } }
      (List.range' 1 1023) (List.range' 1 127) false).txPoolKept := by
  refine ⟨?_, ?_⟩
  · show ((List.range' 1 127 ++ []) ++ [0]).Perm _
    rw [List.append_nil, List.range_eq_range']; exact first_in_use 0 127
  · show ((List.range' 1 1023 ++ []) ++ [0]).Perm _
    rw [List.append_nil, List.range_eq_range']; exact first_in_use 0 1023

/-- Data segments of frames of 1, 64, 65 and 1536 bytes, first and last. -/
theorem test_witness_SentSegmentsAreReadBack :
    ∀ c ∈ [(1, 0), (64, 0), (65, 0), (65, 1), (1536, 0), (1536, 23)],
      1 ≤ (txFrame 0 0 10#16 c.1).frameLength ∧ (txFrame 0 0 10#16 c.1).frameLength ≤ 1536 ∧
        (chainBytes (txFrame 0 0 10#16 c.1).cells).length = c.1 ∧ c.2 < segmentCount c.1 := by
  decide +kernel

end Sys2Proof.Tests
end

section
/-! SUPPORT. What a command is as an event or as an execution, and the induction over every kind of step that each
invariant of the part is proved by. -/

namespace Sys2Proof.Machine

/-- What an event does while the reset pin is held: the pins and the line signal are followed (log 9). -/
def eventHeld : Instr → State → State
  | .lineSignalLoss => (·.setSignal false)
  | .lineSignalReturn => (·.setSignal true)
  | .frameValidRise p => (·.setFrameValid p true)
  | .frameValidFall p => (·.setFrameValid p false)
  | _ => id

/-- What an event does in a running part whose due executions have been taken (R158). -/
def eventRunning : Instr → State → State
  | .lineSignalLoss => fun s => if s.link.signal then s.signalLost else s
  | .lineSignalReturn => fun s => if s.link.signal then s else s.signalBack
  | .segmentReceptionEnd how => (·.lineSymbol how)
  | .startDelimiterArrival => (·.lineSymbol .startDelimiter)
  | .dataByteArrival b => fun s => s.mapReception fun r => r.map (·.add b)
  | .frameValidRise p => fun s => if s.pins.frameValid.get p then s else (s.setFrameValid p true).takeRise p
  | .stationByteReceived p b => fun s => if s.pins.frameValid.get p then s.takeByte p b else s
  | .frameValidFall p => fun s => if s.pins.frameValid.get p then (s.setFrameValid p false).takeFall p else s
  | .transmissionCompletion => State.transmissionDone
  | .holdOffExpiry => fun s => if s.holdOffDue then s.enterHello else s
  | .helloDeadlineExpiry => fun s => if s.helloDue then s.nextHello else s
  | .silenceDeadlineExpiry => fun s => if s.silenceDue then releaseIfDown s (s.linkDown .silence) else s
  | .keepaliveDeadlineExpiry => fun s => if s.keepaliveDue then s.keepalive else s
  | .advanceDeadlineExpiry l => fun s => if s.advanceDue l then s.advanceAged l else s
  | .suspensionDeadlineExpiry l => (·.suspensionExpired l)
  | .ageDeadlineExpiry l => fun s => if s.ageDue l then s.ageAt l else s
  | .peerDeadlineExpiry tag => (·.peerExpired tag)
  | .copyBackCompletion => fun s => if s.config.copyBack.isSome then s.copyBackDone else s
  | .egressFrameStart p => fun s => s.mapEgress fun q => q.set p (q.get p).startHead
  | .egressCompletion p => (·.egressCompleted p)
  | _ => id

/-- The requests that a command of the Management Agent names (R158, log 5). -/
def executionNamed : Instr → Request → Bool
  | .status => Request.isLocal 1
  | .readEntries => Request.isLocal 2
  | .writeEntry => Request.isLocal 3
  | .clearShadow => Request.isLocal 4
  | .commit => Request.isLocal 5
  | .readCounters => Request.isLocal 6
  | .readEvents => Request.isLocal 7
  | .ackEvents => Request.isLocal 8
  | .flushLevel => Request.isLocal 9
  | .linkControlDrop => Request.isLocalWith 10 1
  | .linkControlHold => Request.isLocalWith 10 2
  | .linkControlRelease => Request.isLocalWith 10 3
  | .trafficRestart => Request.isLocalWith 11 1
  | .fullRestart => Request.isLocalWith 11 2
  | _ => Request.isPeer

/-- The reset pin asserted with its straps sampled (R89, R91, R186). -/
def State.resetAsserted (s : State) (trunk station : Straps) : State :=
  (s.mapPins fun k => { k with resetHeld := true, trunkStraps := trunk, stationStraps := station }).mapTime fun t =>
    { t with timeBase := 0#32 }

/-- The supply has been below its operating level (R187). -/
def State.supplyLost (s : State) : State := s.mapPins fun k => { k with supplyLow := true }

/-- Every command is one of the three pins that wait for nothing, an execution, or an event that waits for the executions
due (R158). -/
theorem exec_cases (c : Instr) (s : State) :
    (∃ trunk station, exec c s = .next (s.resetAsserted trunk station)) ∨ exec c s = .next s.coldStart ∨
      exec c s = .next s.supplyLost ∨ exec c s = takeExecution (executionNamed c) s ∨
      exec c s = takeEvent (eventHeld c) (eventRunning c) s := by
  cases c with
  | resetPinAssert trunk station => exact .inl ⟨trunk, station, rfl⟩
  | coldStart => exact .inr (.inl rfl)
  | supplyBelowOperatingLevel => exact .inr (.inr (.inl rfl))
  | status | readEntries | writeEntry | clearShadow | commit | readCounters | readEvents | ackEvents | flushLevel
  | linkControlDrop | linkControlHold | linkControlRelease | trafficRestart | fullRestart | requestPeerForwarding =>
    exact .inr (.inr (.inr (.inl rfl)))
  | _ => exact .inr (.inr (.inr (.inr rfl)))

/-- What a property of the state needs in order to be kept by every step: one field per thing the part can do. -/
structure KeptBySteps (P : State → Prop) : Prop where
  queue : ∀ s n q, P s → P { s with freeCount := n, pending := q }
  resetAsserted : ∀ s trunk station, P s → P (s.resetAsserted trunk station)
  coldStart : ∀ s, P s → P s.coldStart
  supplyLost : ∀ s, P s → P s.supplyLost
  execution : ∀ s r, P s → s.agent.headReady = some r → P (s.executeHead r)
  held : ∀ c s, P s → P (eventHeld c s)
  event : ∀ c s, P s → P (eventRunning c s)
  tick : ∀ s, P s → P s.tick

namespace KeptBySteps

variable {P : State → Prop}

theorem exec (k : KeptBySteps P) {c : Instr} {s t : State} (h : P s) (e : exec c s = .next t) : P t := by
  have settled : P s.settled := s.settled_keeps P k.execution h
  rcases exec_cases c s with ⟨trunk, station, e'⟩ | e' | e' | e' | e' <;> rw [e'] at e <;> injection e with e <;> subst e
  · exact k.resetAsserted s trunk station h
  · exact k.coldStart s h
  · exact k.supplyLost s h
  · unfold State.executeIf
    split
    · exact h
    · split
      · exact h
      · split
        · exact k.execution s _ h ‹_›
        · exact h
  · split
    · exact k.held c s h
    · exact k.event c _ settled

theorem idle (k : KeptBySteps P) {s : State} (h : P s) : P s.idle := by
  unfold State.idle
  split
  · exact h
  · split
    · exact k.execution s _ h ‹_›
    · split
      · exact k.tick s h
      · unfold State.takeDue
        split
        · exact h
        · exact k.queue s _ _ h
        · exact k.queue s _ _ h

/-- Every step keeps the property. -/
theorem step (k : KeptBySteps P) {s t : State} (h : P s) (e : step s = .next t) : P t := by
  unfold Machine.step at e
  split at e
  · injection e with e
    exact e ▸ k.idle h
  · exact k.exec (k.queue s _ _ h) e

end KeptBySteps
end Sys2Proof.Machine
end

section
/-! SUPPORT. Both open-frame stacks stay nested by level, and every queue holds frames of its own level (R13, R16, R30,
R43): one lemma per operation that moves a stack or a queue, and then every command. -/

namespace Sys2Proof.Machine

/-! ### The two halves of the invariant -/

/-- The Scheduler's half: the TX Open-Frame Stack is kept and a queued frame is of its queue's level (R13, R16, R30). -/
def Scheduler.nested (k : Scheduler) : Prop := txStackKept k.stack ∧ ∀ l, ∀ d ∈ k.queues.get l, d.level = l

theorem State.stacksKept_iff (s : State) : s.stacksKept ↔ s.sched.nested ∧ rxStackKept s.reasm.stack := by
  unfold State.stacksKept Scheduler.nested
  constructor
  · rintro ⟨tx, rx, queues⟩
    exact ⟨⟨tx, queues⟩, rx⟩
  · rintro ⟨⟨tx, queues⟩, rx⟩
    exact ⟨tx, rx, queues⟩

/-- An operation that moves neither the Scheduler nor the RX stack keeps the invariant. -/
theorem State.stacksKept_of_same {s t : State} (hs : t.sched = s.sched) (hr : t.reasm.stack = s.reasm.stack)
    (h : s.stacksKept) : t.stacksKept := by
  rw [stacksKept_iff] at h ⊢
  rwa [hs, hr]

/-- An operation that leaves the RX stack needs the Scheduler's half alone. -/
theorem State.stacksKept_of_sched {s t : State} (hr : t.reasm.stack = s.reasm.stack)
    (hs : s.sched.nested → t.sched.nested) (h : s.stacksKept) : t.stacksKept := by
  rw [stacksKept_iff] at h ⊢
  exact ⟨hs h.1, hr ▸ h.2⟩

/-- An operation that leaves the Scheduler needs the Reassembler's half alone. -/
theorem State.stacksKept_of_reasm {s t : State} (hs : t.sched = s.sched)
    (hr : rxStackKept s.reasm.stack → rxStackKept t.reasm.stack) (h : s.stacksKept) : t.stacksKept := by
  rw [stacksKept_iff] at h ⊢
  exact ⟨hs ▸ h.1, hr h.2⟩

/-! ### The Scheduler -/

namespace Scheduler

/-- A queue replaced by frames of its own level. -/
theorem nested_setQueue {k : Scheduler} {l : Level} {q : List TxDescriptor} (h : k.nested) (hq : ∀ d ∈ q, d.level = l) :
    (k.setQueue l q).nested := by
  refine ⟨h.1, fun m d hd => ?_⟩
  simp only [setQueue, Four.get_set] at hd
  split at hd
  · rename_i e
    exact (hq d hd).trans e.symm
  · exact h.2 m d hd

/-- The per-level numbers are no part of the invariant. -/
theorem nested_of_same {k k' : Scheduler} (hq : k'.queues = k.queues) (hs : k'.stack = k.stack) (h : k.nested) :
    k'.nested := by
  unfold nested
  rwa [hq, hs]

theorem nested_cold : Scheduler.cold.nested := by
  simp [nested, cold, txStackKept]

end Scheduler

/-- A stack of entries each of which keeps its frame, its index and its atomic flag. -/
theorem txStackKept_map {stack : List TxEntry} (f : TxEntry → TxEntry)
    (hf : ∀ e, (f e).frame = e.frame ∧ (f e).atomic = e.atomic ∧ (f e).nextIndex = e.nextIndex) (h : txStackKept stack) :
    txStackKept (stack.map f) := by
  obtain ⟨levels, suspended, indices⟩ := h
  refine ⟨?_, ?_, ?_⟩
  · simpa [List.pairwise_map, hf] using levels
  · simpa [← List.map_tail, hf] using suspended
  · simpa [hf] using indices

/-- A stack without its top. -/
theorem txStackKept_tail {e : TxEntry} {below : List TxEntry} (h : txStackKept (e :: below)) : txStackKept below :=
  ⟨(List.pairwise_cons.1 h.1).2, fun x hx => h.2.1 x (List.mem_of_mem_tail hx), fun x hx => h.2.2 x (.tail _ hx)⟩

/-- A stack whose top goes on within its frame. -/
theorem txStackKept_top {e f : TxEntry} {below : List TxEntry} (h : txStackKept (e :: below)) (hf : f.frame = e.frame)
    (ha : f.atomic = e.atomic) (hi : 1 ≤ f.nextIndex ∧ f.nextIndex < segmentCount f.frame.frameLength) :
    txStackKept (f :: below) := by
  obtain ⟨levels, suspended, indices⟩ := h
  refine ⟨List.pairwise_cons.2 ⟨?_, (List.pairwise_cons.1 levels).2⟩, suspended, List.forall_mem_cons.2 ⟨?_, ?_⟩⟩
  · rw [hf]
    exact (List.pairwise_cons.1 levels).1
  · exact ⟨by rw [ha, hf]; exact (indices e (.head _)).1, hi⟩
  · exact fun x hx => indices x (.tail _ hx)

/-- A frame of several segments pushed above a stack whose top lies lower and is not atomic (R20, R30). -/
theorem txStackKept_push {e : TxEntry} {stack : List TxEntry} (h : txStackKept stack)
    (htop : ∀ top ∈ stack.head?, top.frame.level < e.frame.level ∧ top.atomic = false)
    (ha : e.atomic = e.frame.atomic) (hi : 1 ≤ e.nextIndex ∧ e.nextIndex < segmentCount e.frame.frameLength) :
    txStackKept (e :: stack) := by
  obtain ⟨levels, suspended, indices⟩ := h
  refine ⟨List.pairwise_cons.2 ⟨fun x hx => ?_, levels⟩, fun x hx => ?_, List.forall_mem_cons.2 ⟨⟨ha, hi⟩, indices⟩⟩
  · cases stack with
    | nil => simp at hx
    | cons top below =>
      have hl := (htop top rfl).1
      rcases List.mem_cons.1 hx with rfl | hb
      · exact hl
      · exact Fin.lt_trans ((List.pairwise_cons.1 levels).1 x hb) hl
  · cases stack with
    | nil => simp at hx
    | cons top below =>
      rcases List.mem_cons.1 hx with rfl | hb
      · exact (htop x rfl).2
      · exact suspended x hb

@[simp] theorem TxEntry.suspend_same (e : TxEntry) (now : Time) (n : Nat) :
    (e.suspend now n).frame = e.frame ∧ (e.suspend now n).atomic = e.atomic ∧
      (e.suspend now n).nextIndex = e.nextIndex := by
  unfold TxEntry.suspend
  split <;> simp

namespace State

variable {s : State}

theorem suspendedStack_kept (h : txStackKept s.sched.stack) : txStackKept s.suspendedStack := by
  unfold suspendedStack
  cases hs : s.sched.stack with
  | nil => simp [txStackKept]
  | cons e es =>
    rw [hs] at h
    refine txStackKept_top h (by simp) (by simp) ?_
    simpa using (h.2.2 e (.head _)).2

/-- A START is selected only above a top that lies lower and is not atomic (R20). -/
theorem isCandidate_above {l : Level} (h : s.isCandidate l = true) :
    ∀ top ∈ s.suspendedStack.head?, top.frame.level < l ∧ top.atomic = false := by
  unfold isCandidate at h
  unfold suspendedStack
  cases hs : s.sched.stack with
  | nil => simp
  | cons e es =>
    simp only [hs, preemptionAllowed, Bool.and_eq_true, decide_eq_true_eq, Bool.not_eq_true'] at h
    obtain ⟨⟨⟨hlevel, ⟨hatomic, -⟩, -⟩, -⟩, -⟩ := h
    simpa using ⟨hlevel, hatomic⟩

/-- A frame that is no WHOLE has at least two segments (R3). -/
theorem one_lt_segmentCount {n : Nat} (h : segmentCount n ≠ 1) : 1 < segmentCount n := by
  unfold segmentCount cellsFor at *
  split at h
  · exact absurd rfl h
  · rw [if_neg (by assumption)]
    omega

theorem selectStart_nested {l : Level} {f : TxDescriptor} {rest : List TxDescriptor} (h : s.sched.nested)
    (hq : s.sched.queues.get l = f :: rest) (hl : s.isCandidate l = true) (hn : segmentCount f.frameLength ≠ 1) :
    (s.selectStart l f rest).sched.nested := by
  have level : f.level = l := h.2 l f (by simp [hq])
  have above := isCandidate_above hl
  rw [← level] at above
  have queues := (Scheduler.nested_setQueue (l := l) (q := rest) h fun d hd => h.2 l d (by simp [hq, hd])).2
  unfold selectStart
  dsimp only
  split <;>
    exact ⟨txStackKept_push (suspendedStack_kept h.1) above rfl ⟨Nat.le_refl _, one_lt_segmentCount hn⟩, queues⟩

theorem selectWhole_nested {l : Level} {f : TxDescriptor} {rest : List TxDescriptor} (h : s.sched.nested)
    (hq : s.sched.queues.get l = f :: rest) : (s.selectWhole l f rest).sched.nested := by
  have kept := Scheduler.nested_setQueue (l := l) (q := rest) h fun d hd => h.2 l d (by simp [hq, hd])
  unfold selectWhole
  dsimp only
  split <;> exact Scheduler.nested_of_same (by simp; rfl) (by simp; rfl) kept

theorem selectFirst_nested {l : Level} (h : s.sched.nested) (hl : s.isCandidate l = true) :
    (s.selectFirst l).sched.nested := by
  unfold selectFirst
  split
  · exact h
  · split
    · exact selectWhole_nested h ‹_›
    · exact selectStart_nested h ‹_› hl ‹_›

theorem selectNext_nested {top : TxEntry} {below : List TxEntry} (h : s.sched.nested)
    (hs : s.sched.stack = top :: below) : (s.selectNext top below).sched.nested := by
  have kept : txStackKept (top :: below) := hs ▸ h.1
  unfold selectNext
  refine ⟨?_, h.2⟩
  by_cases last : top.nextIndex + 1 < segmentCount top.frame.frameLength
  · have goes_on := txStackKept_top (f := { top with nextIndex := top.nextIndex + 1, suspensionDeadline := none }) kept
      rfl rfl ⟨Nat.le_add_left 1 _, last⟩
    simpa [last] using goes_on
  · simpa [last] using txStackKept_tail kept

theorem select_nested (h : s.sched.nested) : s.select.sched.nested := by
  unfold select
  split
  · simpa using h
  · split
    · rename_i l hl
      exact selectFirst_nested h (List.find?_some hl)
    · split
      · exact h
      · split
        · exact selectNext_nested h ‹_›
        · exact h

theorem selectIfFree_nested (h : s.sched.nested) : s.selectIfFree.sched.nested := by
  unfold selectIfFree
  split
  · exact select_nested h
  · exact h

theorem selectionTrigger_nested (h : s.sched.nested) : s.selectionTrigger.sched.nested := by
  unfold selectionTrigger
  split
  · exact selectIfFree_nested (selectIfFree_nested h)
  · exact selectIfFree_nested h

theorem triggerIfDue_nested (before : State) (h : s.sched.nested) : (triggerIfDue before s).sched.nested := by
  unfold triggerIfDue
  split
  · exact selectionTrigger_nested h
  · exact h

theorem joinQueue_nested (d : TxDescriptor) (h : s.sched.nested) : (s.joinQueue d).sched.nested := by
  simp only [joinQueue, countLevel_frame, mapSched_sched]
  refine Scheduler.nested_setQueue h fun x hx => ?_
  rcases List.mem_append.1 hx with hx | hx
  · exact h.2 _ x hx
  · rw [List.mem_singleton.1 hx]

theorem flush_nested (l : Level) (h : s.sched.nested) : (s.flush l).sched.nested := by
  simpa [flush] using Scheduler.nested_setQueue (l := l) (q := []) h (by simp)

theorem mem_returnedTo {l : Level} {d : TxDescriptor} (h : d ∈ s.returnedTo l) : d.level = l := by
  simp only [returnedTo, List.mem_filter, Bool.and_eq_true, decide_eq_true_eq] at h
  exact h.2.1

theorem settleLevel_nested {before : State} (l : Level) (hb : before.sched.nested) (h : s.sched.nested) :
    (settleLevel before s l).sched.nested := by
  simp only [settleLevel, countLevelBy_frame, mapSched_sched, freeTxAll_frame]
  refine Scheduler.nested_setQueue h fun d hd => ?_
  rcases List.mem_append.1 hd with hd | hd
  · exact mem_returnedTo hd
  · exact hb.2 l d (List.mem_filter.1 hd).1

theorem txTeardown_nested (h : s.sched.nested) : s.txTeardown.sched.nested := by
  have settled : ∀ (ls : List Level) (t : State), t.sched.nested → (ls.foldl (settleLevel s) t).sched.nested := by
    intro ls
    induction ls with
    | nil => exact fun _ ht => ht
    | cons l ls ih => exact fun t ht => ih _ (settleLevel_nested l h ht)
  have emptied : txStackKept [] := by simp [txStackKept]
  unfold txTeardown
  dsimp only
  split
  · exact ⟨emptied, (settled fourIndices s h).2⟩
  · exact ⟨by simpa using emptied, by simpa using (settled fourIndices s h).2⟩

theorem protectAt_nested (l : Level) (e : TxEntry) (h : s.sched.nested) : (s.protectAt l e).sched.nested := by
  have stack : txStackKept (s.sched.stack.map fun x => if x.frame.level = l then x.protect else x) := by
    refine txStackKept_map _ (fun x => ?_) h.1
    split <;> exact ⟨rfl, rfl, rfl⟩
  exact ⟨by simpa [protectAt] using stack, by simpa [protectAt] using h.2⟩

/-! ### The Reassembler -/

/-- A stack some entries of which are taken out. -/
theorem rxStackKept_filter {stack : List RxEntry} (p : RxEntry → Bool) (h : rxStackKept stack) :
    rxStackKept (stack.filter p) := List.Pairwise.filter p h

/-- A stack whose entries keep their levels. -/
theorem rxStackKept_map {stack : List RxEntry} (f : RxEntry → RxEntry) (hf : ∀ e, (f e).level = e.level)
    (h : rxStackKept stack) : rxStackKept (stack.map f) := by
  simpa [rxStackKept, List.pairwise_map, hf] using h

theorem abortWhere_nested (named : RxEntry → Bool) (r : AbortReason) (h : rxStackKept s.reasm.stack) :
    rxStackKept (s.abortWhere named r).reasm.stack := by
  simpa using rxStackKept_filter _ h

theorem markDiscarding_nested (l : Level) (r : AbortReason) (h : rxStackKept s.reasm.stack) :
    rxStackKept (s.markDiscarding l r).reasm.stack := by
  unfold markDiscarding
  split
  · exact h
  · simp only [mapReasm_reasm, returnEntryCells_frame]
    refine rxStackKept_map _ (fun e => ?_) h
    split <;> rfl

theorem advanceEntry_nested (l : Level) (n : Nat) (h : rxStackKept s.reasm.stack) :
    rxStackKept (s.advanceEntry l n).reasm.stack := by
  simp only [advanceEntry, mapReasm_reasm]
  refine rxStackKept_map _ (fun e => ?_) h
  split <;> rfl

/-- A START's entry is pushed above entries of lower levels (R43, R50). -/
theorem startFrame_nested (d : RxData) (h : rxStackKept s.reasm.stack) (hl : ∀ e ∈ s.reasm.stack, e.level < d.level) :
    rxStackKept (s.startFrame d).reasm.stack := by
  have pushed (e : RxEntry) (he : e.level = d.level) : rxStackKept (e :: s.reasm.stack) :=
    List.pairwise_cons.2 ⟨fun x hx => he ▸ hl x hx, h⟩
  unfold startFrame
  split
  · simpa [pushRx] using pushed _ rfl
  · dsimp only
    split
    · simpa [pushRx] using pushed _ rfl
    · rename_i hs
      obtain ⟨p, -, -, rfl⟩ := storeCell_eq _ _ _ _ hs
      simpa [pushRx] using pushed _ rfl

theorem storeSegment_nested (e : RxEntry) (d : RxData) (h : rxStackKept s.reasm.stack) :
    rxStackKept (s.storeSegment e d).1.reasm.stack := by
  unfold storeSegment
  split
  · exact markDiscarding_nested _ _ h
  · split
    · exact markDiscarding_nested _ _ (by simpa using h)
    · rename_i hs
      obtain ⟨n, -, hs⟩ := Option.bind_eq_some_iff.mp hs
      obtain ⟨p, -, -, rfl⟩ := storeCell_eq _ _ _ _ hs
      exact advanceEntry_nested _ _ h

theorem completeFrame_nested (e : RxEntry) (h : rxStackKept s.reasm.stack) :
    rxStackKept (s.completeFrame e).reasm.stack := by
  have kept := rxStackKept_filter (fun x => !decide (x.level = e.level)) h
  unfold completeFrame
  dsimp only
  split <;> simpa [setRxStack] using kept

theorem matchedSegment_nested (e : RxEntry) (d : RxData) (h : rxStackKept s.reasm.stack) :
    rxStackKept (s.matchedSegment e d).reasm.stack := by
  have stored := storeSegment_nested e d h
  unfold matchedSegment
  dsimp only
  split
  · split
    · exact abortWhere_nested _ _ h
    · exact h
  · split <;> rename_i q <;> rw [q] at stored <;> dsimp only at stored
    · split
      · exact abortWhere_nested _ _ stored
      · exact stored
    · split
      · split
        · exact completeFrame_nested e stored
        · exact abortWhere_nested _ _ stored
      · exact stored

theorem continueFrame_nested (d : RxData) (h : rxStackKept s.reasm.stack) :
    rxStackKept (s.continueFrame d).reasm.stack := by
  unfold continueFrame
  split
  · simpa using h
  · dsimp only
    split
    · exact matchedSegment_nested _ d (abortWhere_nested _ _ h)
    · simpa [abortAt, abortAbove] using rxStackKept_filter _ (rxStackKept_filter _ h)

theorem kindRule_nested (d : RxData) (h : rxStackKept s.reasm.stack) : rxStackKept (s.kindRule d).reasm.stack := by
  unfold kindRule
  split
  · refine startFrame_nested d (abortWhere_nested _ _ h) fun e he => ?_
    simp only [abortAtOrAbove, abortWhere_stack, List.mem_filter, Bool.not_eq_true', decide_eq_false_iff_not] at he
    exact Fin.not_le.1 he.2
  · rw [(wholeFrame_frame _ d).2.2.2.2.2.2.2.1]
    exact abortWhere_nested _ _ h
  · exact continueFrame_nested d h
  · exact continueFrame_nested d h

theorem reassemble_nested (d : RxData) (h : rxStackKept s.reasm.stack) : rxStackKept (s.reassemble d).reasm.stack := by
  unfold reassemble
  dsimp only
  split
  · exact kindRule_nested d (by simpa using h)
  · split
    · exact kindRule_nested d (by simpa using markDiscarding_nested _ _ h)
    · simpa using h

theorem rxTeardown_nested (h : rxStackKept s.reasm.stack) : rxStackKept s.rxTeardown.reasm.stack := by
  simpa [rxTeardown] using abortWhere_nested (fun _ => true) .linkLoss h

end State
end Sys2Proof.Machine
end

section
/-! SUPPORT. Every command keeps the nesting of the open-frame stacks, and with them every step. -/

namespace Sys2Proof.Machine

namespace State

variable {s : State}

/-! ### Selections, DOWN events and segments on arrival -/

theorem selectionTrigger_keepsStacks (h : s.stacksKept) : s.selectionTrigger.stacksKept :=
  stacksKept_of_sched (by simp) selectionTrigger_nested h

theorem triggerIfDue_keepsStacks (before : State) (h : s.stacksKept) : (triggerIfDue before s).stacksKept :=
  stacksKept_of_sched (by simp) (triggerIfDue_nested before) h

theorem creditReport_keepsStacks (before : State) (h : s.stacksKept) : (creditReport before s).stacksKept :=
  triggerIfDue_keepsStacks s (stacksKept_of_same (by simp) (by simp) h)

theorem admission_keepsStacks (d : TxDescriptor) (h : s.stacksKept) : (s.admission d).stacksKept :=
  selectionTrigger_keepsStacks (stacksKept_of_sched (by simp) (joinQueue_nested d) h)

theorem linkDown_keepsStacks (cause : LinkCause) (h : s.stacksKept) : (s.linkDown cause).stacksKept := by
  by_cases hd : s.link.state = .down
  · simpa [linkDown, hd] using h
  · rw [linkDown_eq s cause hd]
    have announced : (s.downAnnounced cause).stacksKept :=
      stacksKept_of_same (by simp [downAnnounced]) (by simp [downAnnounced]) h
    have received : (s.downAnnounced cause).rxTeardown.stacksKept :=
      stacksKept_of_reasm (by simp) rxTeardown_nested announced
    exact stacksKept_of_sched (by simp) txTeardown_nested received

theorem enterUp_keepsStacks (h : s.stacksKept) : s.enterUp.stacksKept := by
  have numbered : ((s.mapSched fun k => { k with nextTag := Four.all 0#8, nextSeq := Four.all 0#16 }).mapReasm fun a =>
      { a with expected := some (Four.all 0#16) }).stacksKept := h
  exact stacksKept_of_same (by simp [enterUp, fourIndices]) (by simp [enterUp, fourIndices]) numbered

theorem takeUp_keepsStacks (g : GoodSegment) (h : s.stacksKept) : (s.takeUp g).stacksKept := by
  cases g with
  | data d => exact creditReport_keepsStacks s (stacksKept_of_reasm (by simp) (reassemble_nested d) h)
  | control limits =>
    simp only [takeUp, controlLimits]
    split
    · exact h
    · exact selectionTrigger_keepsStacks h
  | hello heardYou limits => exact h

theorem enterUpWith_keepsStacks (g : GoodSegment) (h : s.stacksKept) : (s.enterUpWith g).stacksKept := by
  have entered : s.enterUp.countEntrySegment.useFree.stacksKept :=
    stacksKept_of_same (by simp) (by simp) (enterUp_keepsStacks h)
  unfold enterUpWith
  dsimp only
  split
  · exact takeUp_keepsStacks g (selectionTrigger_keepsStacks entered)
  · exact selectionTrigger_keepsStacks (takeUp_keepsStacks g entered)

theorem goodInHello_keepsStacks (g : GoodSegment) (h : s.stacksKept) : (s.goodInHello g).stacksKept := by
  have stored (limits : Four Half) : (s.storeHello limits).stacksKept := h
  unfold goodInHello
  split
  · split
    · exact selectionTrigger_keepsStacks (enterUp_keepsStacks (stored _))
    · exact stored _
  · split
    · exact enterUpWith_keepsStacks _ h
    · exact h
  · split
    · exact enterUpWith_keepsStacks _ h
    · exact h

theorem goodInUp_keepsStacks (g : GoodSegment) (h : s.stacksKept) : (s.goodInUp g).stacksKept := by
  have noted : (s.mapLink (·.noteGood s.now)).stacksKept := h
  unfold goodInUp
  dsimp only
  split
  · split
    · exact noted
    · exact linkDown_keepsStacks _ noted
  · exact takeUp_keepsStacks _ noted
  · exact takeUp_keepsStacks _ noted

theorem goodSegment_keepsStacks (g : GoodSegment) (h : s.stacksKept) : (s.goodSegment g).stacksKept := by
  have counted : (match g with
      | .control _ => (s.countTrunk .segmentsReceived).countTrunk .controlReceived
      | .data _ => s.countTrunk .segmentsReceived
      | .hello _ _ => s.countTrunk .segmentsReceived).stacksKept := by
    cases g <;> exact h
  unfold goodSegment
  dsimp only
  split
  · exact counted
  · exact goodInHello_keepsStacks g counted
  · exact goodInUp_keepsStacks g counted

theorem badSegment_keepsStacks (h : s.stacksKept) : s.badSegment.stacksKept := by
  unfold badSegment
  dsimp only
  split
  · split
    · exact linkDown_keepsStacks _ h
    · exact h
  · exact h

/-! ### Restarts and deferred commands -/

theorem cold_keepsStacks (pins : Pins) (signal : Bool) (cause : RestartCause) (freeCount : Nat) (pending : List Instr) :
    (State.cold pins signal cause freeCount pending).stacksKept :=
  (stacksKept_iff _).2 ⟨Scheduler.nested_cold, List.Pairwise.nil⟩

theorem restarted_keepsStacks (pins : Pins) (signal : Bool) (cause : RestartCause) (trunkTx : TrunkTx)
    (egress : Four EgressPort) (freeCount : Nat) (pending : List Instr) :
    (State.restarted pins signal cause trunkTx egress freeCount pending).stacksKept :=
  stacksKept_of_same (by simp [restarted, offerRestart]) (by simp [restarted, offerRestart])
    (cold_keepsStacks pins signal cause freeCount pending)

theorem restartTraffic_keepsStacks (s : State) : s.restartTraffic.stacksKept := by
  refine (stacksKept_iff _).2 ⟨?_, ?_⟩
  · simpa [restartTraffic, offerRestart, clearTraffic] using Scheduler.nested_cold
  · simp [restartTraffic, offerRestart, clearTraffic, Reassembler.cold, rxStackKept]

theorem linkAction_keepsStacks (a : LinkAction) (h : s.stacksKept) : (s.linkAction a).stacksKept := by
  cases a with
  | drop =>
    simp only [linkAction, linkDrop]
    split
    · split <;> exact h
    · exact linkDown_keepsStacks _ h
  | hold =>
    simp only [linkAction, linkHold]
    split
    · exact h
    · exact linkDown_keepsStacks _ h
  | release => exact stacksKept_of_same (by simp [linkAction]) (by simp [linkAction]) h

theorem applyCommand_keepsStacks (c : DeferredCommand) (h : s.stacksKept) : (s.applyCommand c).stacksKept := by
  cases c with
  | linkControl a => exact linkAction_keepsStacks a h
  | restart k =>
    cases k with
    | traffic => exact restartTraffic_keepsStacks _
    | full => exact restarted_keepsStacks _ _ _ _ _ _ _

theorem replyLeft_keepsStacks (left : AwaitedReply) (h : s.stacksKept) : (s.replyLeft left).stacksKept := by
  unfold replyLeft
  split
  · exact h
  · split
    · exact applyCommand_keepsStacks _ h
    · exact h

theorem releaseIfDown_keepsStacks (before : State) (h : s.stacksKept) : (releaseIfDown before s).stacksKept := by
  unfold releaseIfDown commandOnDown
  split
  · split
    · exact h
    · exact h
    · exact applyCommand_keepsStacks _ h
  · exact h

/-! ### Replies and the execution of requests -/

theorem sendTrunk_keepsStacks (origin : Origin) (payload : List Byte) (h : s.stacksKept) :
    (s.sendTrunk origin payload).1.stacksKept := by
  unfold sendTrunk
  split
  · exact stacksKept_of_same (by simp) (by simp) h
  · exact admission_keepsStacks _ h

theorem trunkReply_keepsStacks (g : Half) (bs : List Byte) (h : s.stacksKept) : (s.trunkReply g bs).1.stacksKept := by
  have sent := sendTrunk_keepsStacks .trunkReply bs h
  unfold trunkReply
  split
  · split <;> rename_i q <;> rw [q] at sent <;> exact sent
  · exact h

theorem reply_keepsStacks (r : Request) (status : Status) (results : List Byte) (h : s.stacksKept) :
    (s.reply r status results).1.stacksKept := by
  unfold reply
  split
  · exact stacksKept_of_same (by simp) (by simp) h
  · exact trunkReply_keepsStacks _ _ h

theorem deferCommand_keepsStacks (r : Request) (c : Option DeferredCommand) (h : s.stacksKept) :
    (s.deferCommand r c).stacksKept := by
  cases c with
  | none => exact reply_keepsStacks r .range [] h
  | some c =>
    have replied := reply_keepsStacks r .ok [] h
    simp only [deferCommand]
    cases hr : (s.reply r .ok []).2 with
    | none => exact applyCommand_keepsStacks c replied
    | some awaited => exact replied

/-- What a command carries out before its reply moves no stack; FLUSH LEVEL empties a queue. -/
theorem carryOut_keepsStacks (r : Request) (h : s.stacksKept) : (s.carryOut r).stacksKept := by
  have sent (a : Answer) (ha : a.state.stacksKept) : (a.send r).stacksKept := reply_keepsStacks r _ _ ha
  unfold carryOut
  split
  · exact sent _ h
  · refine sent _ ?_
    unfold carryReadEntries readEntriesOf
    dsimp only
    repeat' split
    all_goals exact h
  · exact sent _ h
  · exact sent _ h
  · exact sent _ h
  · refine sent _ ?_
    unfold carryReadCounters
    repeat' split
    all_goals exact h
  · refine sent _ ?_
    unfold carryReadEvents
    dsimp only
    split <;> exact h
  · refine sent _ ?_
    unfold carryAckEvents
    dsimp only
    split <;> exact h
  · refine sent _ ?_
    unfold carryFlushLevel
    split
    · exact h
    · exact stacksKept_of_sched (by simp) (flush_nested _) h
  · exact deferCommand_keepsStacks r _ h
  · exact deferCommand_keepsStacks r _ h

theorem forward_keepsStacks (r : Request) (p : Port) (h : s.stacksKept) : (s.forward r p).stacksKept := by
  have sent := sendTrunk_keepsStacks .forwardedRequest (r.relayed (s.newPeer r p).localTag) h
  unfold forward
  split
  · exact reply_keepsStacks r _ _ h
  · split
    · exact reply_keepsStacks r _ _ h
    · dsimp only
      split <;> rename_i q <;> rw [q] at sent
      · exact reply_keepsStacks r _ _ sent
      · exact sent

theorem executeLocal_keepsStacks (r : Request) (h : s.stacksKept) : (s.executeLocal r).stacksKept := by
  unfold executeLocal
  split
  · exact reply_keepsStacks r _ _ h
  · split
    · exact reply_keepsStacks r _ _ h
    · exact carryOut_keepsStacks r h

theorem executeHead_keepsStacks (r : Request) (h : s.stacksKept) : (s.executeHead r).stacksKept := by
  have taken : (s.mapAgent fun a => { a with requests := a.requests.tail }).stacksKept := h
  unfold executeHead executeRequest
  split
  · split
    · exact reply_keepsStacks r _ _ taken
    · split
      · exact reply_keepsStacks r _ _ taken
      · exact executeLocal_keepsStacks r taken
  · split
    · exact forward_keepsStacks r _ taken
    · exact executeLocal_keepsStacks r taken

/-! ### The events of the lines, the ports and the timers -/

theorem lineSymbol_keepsStacks (how : ReceptionEnd) (h : s.stacksKept) : (s.lineSymbol how).stacksKept := by
  have opened (t : State) (ht : t.stacksKept) : (t.openReception how).stacksKept := by cases how <;> exact ht
  unfold lineSymbol
  split
  · exact opened s h
  · refine opened _ (releaseIfDown_keepsStacks s ?_)
    unfold reportSegment
    split
    · exact badSegment_keepsStacks h
    · exact goodSegment_keepsStacks _ h

theorem signalLost_keepsStacks (h : s.stacksKept) : s.signalLost.stacksKept := by
  have lost : ((s.setSignal false).mapReception fun _ => none).stacksKept := h
  unfold signalLost
  dsimp only
  split
  · exact lost
  · exact releaseIfDown_keepsStacks _ (linkDown_keepsStacks _ lost)

theorem signalBack_keepsStacks (h : s.stacksKept) : s.signalBack.stacksKept := by
  have back : (s.setSignal true).stacksKept := h
  unfold signalBack
  dsimp only
  split
  · exact stacksKept_of_same (by simp) (by simp) back
  · exact back

theorem takeRise_keepsStacks (p : Port) (h : s.stacksKept) : (s.takeRise p).stacksKept := by
  have begun : (s.beginFrame p).stacksKept := by
    unfold beginFrame
    split
    · exact stacksKept_of_same (s := s) (by simp [setSpr]) (by simp [setSpr]) h
    · exact h
  unfold takeRise
  split
  · exact begun
  · exact begun
  · exact h
  · exact h

theorem takeByte_keepsStacks (p : Port) (b : Byte) (h : s.stacksKept) : (s.takeByte p b).stacksKept := by
  unfold takeByte payloadByte dropNoBuffer
  dsimp only
  repeat' split
  all_goals first | exact h | exact stacksKept_of_same (s := s) (by simp [setSpr]) (by simp [setSpr]) h

theorem userFrame_keepsStacks (p : Port) (r : Spr) (n : Nat) (h : s.stacksKept) : (s.userFrame p r n).stacksKept := by
  have treated (t : State) (c : Classified) (ht : t.stacksKept) : (t.treatFrame p r n c).stacksKept := by
    unfold treatFrame
    split
    · exact ht
    · split
      · exact admission_keepsStacks _ ht
      · exact ht
  unfold userFrame
  refine treated _ _ ?_
  split <;> exact h

theorem takeFall_keepsStacks (p : Port) (h : s.stacksKept) : (s.takeFall p).stacksKept := by
  have taken : ((s.setSpr p (Spr.cleared .idle)).countPort p .framesIn).stacksKept := h
  unfold takeFall
  dsimp only
  split
  · exact h
  · exact h
  · exact h
  · unfold endFrame
    split
    · exact taken
    · unfold managementFrame
      split
      · exact stacksKept_of_same (by simp [giveBackFrame]) (by simp [giveBackFrame]) taken
      · exact taken
    · exact userFrame_keepsStacks p _ _ taken

theorem startLatched_keepsStacks (h : s.stacksKept) : s.startLatched.stacksKept := by
  unfold startLatched
  split
  · exact h
  · exact selectionTrigger_keepsStacks h

theorem transmissionDone_keepsStacks (h : s.stacksKept) : s.transmissionDone.stacksKept := by
  have completed (g : Segment) : (s.segmentCompleted g).stacksKept := stacksKept_of_same (by simp) (by simp) h
  unfold transmissionDone
  split
  · exact h
  · split
    · exact startLatched_keepsStacks (completed _)
    · exact startLatched_keepsStacks (replyLeft_keepsStacks _ (completed _))

theorem suspensionExpired_keepsStacks (l : Level) (h : s.stacksKept) : (s.suspensionExpired l).stacksKept := by
  unfold suspensionExpired
  split
  · exact h
  · split
    · exact stacksKept_of_sched (by simp [protectAt]) (protectAt_nested l _) h
    · exact h

theorem ageAt_keepsStacks (l : Level) (h : s.stacksKept) : (s.ageAt l).stacksKept := by
  refine creditReport_keepsStacks s (stacksKept_of_reasm (by simp) (fun hr => ?_) h)
  refine markDiscarding_nested _ _ (rxStackKept_map _ (fun e => ?_) hr)
  split <;> rfl

theorem peerExpired_keepsStacks (tag : Byte) (h : s.stacksKept) : (s.peerExpired tag).stacksKept := by
  unfold peerExpired
  split
  · exact h
  · split
    · exact stacksKept_of_same (by simp [peerTimedOut]) (by simp [peerTimedOut]) h
    · exact h

theorem egressCompleted_keepsStacks (p : Port) (h : s.stacksKept) : (s.egressCompleted p).stacksKept := by
  unfold egressCompleted
  split
  · exact replyLeft_keepsStacks _ (creditReport_keepsStacks s (stacksKept_of_same (by simp) (by simp) h))
  · exact h
  · exact h
  · exact h

/-- An event that is taken when a condition holds. -/
theorem ite_keepsStacks {c : Prop} [Decidable c] {t u : State} (ht : t.stacksKept) (hu : u.stacksKept) :
    (if c then t else u).stacksKept := by
  split
  · exact ht
  · exact hu

theorem eventRunning_keepsStacks (c : Instr) (h : s.stacksKept) : (eventRunning c s).stacksKept := by
  cases c with
  | lineSignalLoss => exact ite_keepsStacks (signalLost_keepsStacks h) h
  | lineSignalReturn => exact ite_keepsStacks h (signalBack_keepsStacks h)
  | segmentReceptionEnd how => exact lineSymbol_keepsStacks how h
  | startDelimiterArrival => exact lineSymbol_keepsStacks _ h
  | frameValidRise p => exact ite_keepsStacks h (takeRise_keepsStacks p h)
  | stationByteReceived p b => exact ite_keepsStacks (takeByte_keepsStacks p b h) h
  | frameValidFall p => exact ite_keepsStacks (takeFall_keepsStacks (s := s.setFrameValid p false) p h) h
  | transmissionCompletion => exact transmissionDone_keepsStacks h
  | holdOffExpiry => exact ite_keepsStacks (stacksKept_of_same (by simp) (by simp) h) h
  | helloDeadlineExpiry => exact ite_keepsStacks (stacksKept_of_same (by simp [nextHello]) (by simp [nextHello]) h) h
  | silenceDeadlineExpiry => exact ite_keepsStacks (releaseIfDown_keepsStacks s (linkDown_keepsStacks _ h)) h
  | keepaliveDeadlineExpiry => exact ite_keepsStacks (triggerIfDue_keepsStacks s (s := s.mapLink _) h) h
  | advanceDeadlineExpiry l => exact ite_keepsStacks (triggerIfDue_keepsStacks s (s := s.mapLink _) h) h
  | suspensionDeadlineExpiry l => exact suspensionExpired_keepsStacks l h
  | ageDeadlineExpiry l => exact ite_keepsStacks (ageAt_keepsStacks l h) h
  | peerDeadlineExpiry tag => exact peerExpired_keepsStacks tag h
  | copyBackCompletion =>
    exact ite_keepsStacks (stacksKept_of_same (by simp [copyBackDone]) (by simp [copyBackDone]) h) h
  | egressCompletion p => exact egressCompleted_keepsStacks p h
  | _ => exact h

/-- The nesting of both stacks is kept by everything the part can do. -/
theorem stacksKept_keptBySteps : KeptBySteps stacksKept where
  queue _ _ _ h := h
  resetAsserted _ _ _ h := h
  coldStart _ _ := restarted_keepsStacks _ _ _ _ _ _ _
  supplyLost _ h := h
  execution _ r h _ := executeHead_keepsStacks r h
  held c _ h := by cases c <;> exact h
  event c _ h := eventRunning_keepsStacks c h
  tick _ h := h

end State

end Sys2Proof.Machine

/-- Settles O54, by the induction over every kind of step. -/
theorem everyStepKeepsTheNesting : Obligations.EveryStepKeepsTheNesting :=
  fun _ _ h e => Sys2Proof.Machine.State.stacksKept_keptBySteps.step h e
end

section
/-! The reset pin, the line signal and the Trunk Receiver: RESET_PIN_ASSERT, LINE_SIGNAL_LOSS and LINE_SIGNAL_RETURN,
the symbols of the trunk line (R7, R8, R9, R71, R78). -/

namespace Sys2Proof.Machine

/-! ### Frames -/

/-- A frame is checked block by block; what two states agree on beyond a list of blocks they agree on beyond a longer
one. -/
theorem onlyChanges_mono {changed more : List Block} {s t : State} (h : onlyChanges changed s t) (hc : changed ⊆ more) :
    onlyChanges more s t := fun b hb => h b fun hm => hb (hc hm)

theorem onlyChanges_trans {changed : List Block} {s t u : State} (h1 : onlyChanges changed s t)
    (h2 : onlyChanges changed t u) : onlyChanges changed s u := by
  intro b hb
  have e1 := h1 b hb
  have e2 := h2 b hb
  cases b <;> exact Eq.trans e2 e1

theorem onlyChanges_refl (changed : List Block) (s : State) : onlyChanges changed s s := by
  intro b _
  cases b <;> rfl

/-! ### The reset pin -/

theorem transmitFrameValid_held {t : State} (h : t.pins.resetHeld = true) (p : Port) : t.transmitFrameValid p = false := by
  simp [State.transmitFrameValid, h]

theorem step_held {t : State} (h : t.pins.resetHeld = true) (hp : t.pending = []) : step t = .next t := by
  simp [step, hp, State.idle, h]

/-! ### The segment in reception -/

/-- Where no command awaits a trunk reply a DOWN event releases none (R169). -/
theorem releaseIfDown_none (before s : State) (h : s.noCommandOnTrunk) : releaseIfDown before s = s := by
  unfold releaseIfDown State.commandOnDown
  split
  · split
    · rfl
    · rfl
    · rename_i c n hm
      exact absurd hm (h c n)
  · rfl

/-- A DOWN event in a state u that differs from s by its link, its reception and its counters, in the words of the statements
(R79, R80). -/
theorem linkDown_from {s u : State} (cause : LinkCause) (hu : onlyChanges [.link, .reception, .counters] s u)
    (hc : u.counters.trunkAt (.linkDowns cause) = s.counters.trunkAt (.linkDowns cause)) (hd : u.link.state ≠ .down) :
    u.link.wentDown s.now cause (u.linkDown cause).link ∧ settledDown s (u.linkDown cause) cause ∧
      keptThroughDown s (u.linkDown cause) := by
  have htx : u.trunkTx = s.trunkTx := hu .trunkTx (by decide)
  have hev : u.events = s.events := hu .events (by decide)
  have htm : u.time = s.time := hu .time (by decide)
  have hag : u.agent = s.agent := hu .agent (by decide)
  have hsc : u.sched = s.sched := hu .sched (by decide)
  obtain ⟨went, settled, only, rest⟩ := u.linkDown_kept cause hd
  refine ⟨?_, ?_, onlyChanges_trans (onlyChanges_mono hu (by decide)) only, ?_⟩
  · simpa only [State.now, htm] using went
  · simpa only [settledDown, trunkCounted, htx, hev, htm, hc] using settled
  · simpa only [hag, hsc] using rest

/-- Without a DOWN event nothing is released. -/
theorem releaseIfDown_same (before s : State) (h : s.link.state = before.link.state) : releaseIfDown before s = s := by
  unfold releaseIfDown
  rw [if_neg]
  rintro ⟨h1, h2⟩
  exact h1 (h ▸ h2)

/-- A reception that ends without a good segment (R9). -/
theorem judge_bad {r : Reception} {how : ReceptionEnd}
    (h : how ≠ .endDelimiter ∨ r.overlength = true ∨ checkSegment r.bytes = none) : r.judge how = none := by
  cases how with
  | endDelimiter =>
    rcases h with h | h | h
    · exact absurd rfl h
    · simp [Reception.judge, h]
    · simp [Reception.judge, h]
  | startDelimiter => rfl
  | idleFill => rfl

/-- A good segment ends its reception (R9). -/
theorem judge_good {r : Reception} {g : GoodSegment} (ho : r.overlength = false) (hc : checkSegment r.bytes = some g) :
    r.judge .endDelimiter = some g := by
  simp [Reception.judge, ho, hc]

/-- The end of a bad segment, by what ends it (R8, R9). -/
theorem lineSymbol_bad {s : State} {r : Reception} {how : ReceptionEnd} (hr : s.reception = some r)
    (h : how ≠ .endDelimiter ∨ r.overlength = true ∨ checkSegment r.bytes = none) :
    s.lineSymbol how = (releaseIfDown s (s.mapReception fun _ => none).badSegment).openReception how := by
  simp [State.lineSymbol, hr, State.closeReception, judge_bad h, State.reportSegment]

theorem lineSymbol_good {s : State} {r : Reception} {g : GoodSegment} (hr : s.reception = some r)
    (ho : r.overlength = false) (hc : checkSegment r.bytes = some g) :
    s.lineSymbol .endDelimiter = releaseIfDown s ((s.mapReception fun _ => none).goodSegment g) := by
  simp [State.lineSymbol, hr, State.closeReception, judge_good ho hc, State.reportSegment, State.openReception]

/-- What ends a reception begins the next one when it is a start delimiter (R8). -/
theorem openReception_eq {s : State} (how : ReceptionEnd) (h : s.reception = none) :
    s.openReception how =
      { s with reception := if how = .startDelimiter then some { bytes := [], overlength := false } else none } := by
  cases how
  · exact congrArg (fun r => { s with reception := r }) h
  · rfl
  · exact congrArg (fun r => { s with reception := r }) h

/-- A bad segment while the link is not UP is counted, and that is all (R9, R78). -/
theorem badSegment_notUp {s : State} (h : s.link.state ≠ .up) : s.badSegment = s.countTrunk .crcMalformed := by
  simp [State.badSegment, h]

/-- A good segment on a DOWN link, or one that is no HELLO on a HELLO link that has heard none, is only counted (R70). -/
theorem goodSegment_untaken {s : State} {g : GoodSegment}
    (h : s.link.state = .down ∨ s.link.state = .hello ∧ s.link.heard = false ∧ (∀ y q, g ≠ .hello y q)) :
    s.goodSegment g =
      match g with
      | .control _ => (s.countTrunk .segmentsReceived).countTrunk .controlReceived
      | .data _ => s.countTrunk .segmentsReceived
      | .hello _ _ => s.countTrunk .segmentsReceived := by
  rcases h with h | ⟨h, hh, hg⟩
  · cases g <;> simp [State.goodSegment, h]
  · cases g with
    | hello y q => exact absurd rfl (hg y q)
    | data d => simp [State.goodSegment, h, State.goodInHello, hh]
    | control q => simp [State.goodSegment, h, State.goodInHello, hh]

end Sys2Proof.Machine

open Sys2Proof Sys2Proof.Machine in
/-- Settles O4. -/
theorem resetPinHoldsThePart : Obligations.ResetPinHoldsThePart := by
  intro trunk station s
  refine ⟨_, rfl, rfl, rfl, ?_, rfl, fun p => transmitFrameValid_held rfl p, rfl, fun hp => step_held rfl hp⟩
  intro b hb
  cases b <;> first | rfl | exact absurd (by decide) hb

open Sys2Proof Sys2Proof.Machine in
/-- Settles O7: the loss is one of the two branches of `signalLost`, the second a DOWN event; the return is `signalBack`. -/
theorem lineSignalGovernsTheHoldOff : Obligations.LineSignalGovernsTheHoldOff := by
  refine ⟨fun s hs hsig hd => ?_, fun s hs hsig hd hc => ?_, fun s hs hsig => ?_⟩
  · refine ⟨_, Laws.exec_lineSignalLoss s hs hsig, ?_⟩
    simp only [State.signalLost, if_pos hd]
    refine ⟨rfl, rfl, fun b hb => ?_⟩
    cases b <;> first | rfl | exact absurd (by decide) hb
  · obtain ⟨u, hu⟩ : ∃ u, u = (s.setSignal false).mapReception fun _ => none := ⟨_, rfl⟩
    have hud : u.link.state ≠ .down := by simpa [hu, State.setSignal] using hd
    have huo : onlyChanges [.link, .reception, .counters] s u := by
      intro b hb
      cases b <;> first | (subst hu; rfl) | exact absurd (by decide) hb
    have hag : u.agent = s.agent := huo .agent (by decide)
    obtain ⟨hmode, -, -, htrunk, -⟩ := (u.linkDown_spec .signal hud).2.2.2.2
    have lost : s.signalLost = u.linkDown .signal := by
      simp only [State.signalLost, if_neg hd, ← hu]
      exact releaseIfDown_none _ _ fun c n => by rw [hmode, hag]; exact hc c n
    obtain ⟨went, settled, kept⟩ := linkDown_from .signal huo (by simp [hu, State.setSignal]) hud
    rw [Laws.exec_lineSignalLoss s hs hsig, lost]
    refine ⟨_, rfl, ?_, ?_, ?_, settled, kept, ?_⟩
    · simpa [hu, State.setSignal] using went
    · rw [went]
      simp [hu, State.setSignal]
    · simp [hu]
    · rw [CounterBank.trunkAt_congr htrunk]
      simp [hu, State.setSignal]
  · refine ⟨_, Laws.exec_lineSignalReturn s hs hsig, ?_, ?_⟩
    · unfold State.signalBack State.startHoldOff
      by_cases c : s.link.state = .down ∧ s.link.held = false
      · simp [c, State.setSignal, State.holdOffFromNow, timeAfter, Config.holdOffTime, State.now]
      · simp [c, State.setSignal]
    · intro b hb
      unfold State.signalBack State.setSignal
      dsimp only
      split <;> cases b <;> first | exact absurd (by decide) hb | simp [Block.same]

open Sys2Proof Sys2Proof.Machine in
/-- Settles O8: outside a reception `openReception` alone acts, and a data byte is `Reception.add`. -/
theorem receptionBuildsOneSegment : Obligations.ReceptionBuildsOneSegment := by
  refine ⟨fun s hs hr => ?_, fun s b hs => ?_⟩
  · have outside (how : ReceptionEnd) : s.lineSymbol how = s.openReception how := by simp [State.lineSymbol, hr]
    refine ⟨⟨_, Laws.exec_startDelimiterArrival s hs, ?_⟩, ?_, ?_⟩
    · rw [outside]
      refine ⟨rfl, fun b hb => ?_⟩
      cases b <;> first | rfl | exact absurd (by decide) hb
    · rw [Laws.exec_segmentReceptionEnd s _ hs, outside]
      rfl
    · rw [Laws.exec_segmentReceptionEnd s _ hs, outside]
      rfl
  · refine ⟨_, Laws.exec_dataByteArrival s b hs, fun b hb => ?_, fun hr => ?_, fun r hr hl => ?_, fun r hr hl => ?_⟩
    · cases b <;> first | rfl | exact absurd (by decide) hb
    · simp [hr]
    · simp [hr, Reception.add, Config.longestSegment, hl]
    · simp [hr, Reception.add, Config.longestSegment, Nat.not_lt.2 hl]

open Sys2Proof Sys2Proof.Machine in
/-- Settles O9: an untaken segment reaches the trunk counters alone. -/
theorem untakenSegmentsAreOnlyCounted : Obligations.UntakenSegmentsAreOnlyCounted := by
  refine ⟨fun s r how hs hr hup hbad => ⟨?_, ?_⟩, fun s r g hs hr ho hc hlink => ?_⟩
  · rw [Laws.exec_startDelimiterArrival s hs, Laws.exec_segmentReceptionEnd s _ hs]
  · refine ⟨_, Laws.exec_segmentReceptionEnd s how hs, ?_⟩
    rw [lineSymbol_bad hr hbad, badSegment_notUp (by simpa using hup), releaseIfDown_same _ _ (by simp),
      openReception_eq how (by simp)]
    refine ⟨rfl, rfl, fun b hb => ?_⟩
    cases b <;> first | rfl | exact absurd (by decide) hb
  · have counted := goodSegment_untaken (s := s.mapReception fun _ => none) (g := g) (by simpa using hlink)
    refine ⟨_, Laws.exec_segmentReceptionEnd s .endDelimiter hs, ?_⟩
    rw [lineSymbol_good hr ho hc, releaseIfDown_same _ _ (by rw [counted]; cases g <;> rfl), counted]
    refine ⟨by cases g <;> rfl, fun hg => ?_, fun q hg => by subst hg; rfl, fun b hb => ?_⟩
    · cases g with
      | control q => exact absurd rfl (hg q)
      | data d => rfl
      | hello y q => rfl
    · cases g <;> cases b <;> first | rfl | exact absurd (by decide) hb

namespace Sys2Proof.Machine

/-- A bad segment while UP that leaves the error budget below its limit (R78). -/
theorem badSegment_within {s : State} (h : s.link.state = .up) (hb : s.link.errorBudget < 15) :
    s.badSegment = (s.countTrunk .crcMalformed).mapLink (·.noteBad) := by
  have hb' : ¬16 ≤ s.link.errorBudget + 1 := by omega
  simp [State.badSegment, h, LinkController.noteBad, Config.errorLimit, hb']

/-- The bad segment that brings the error budget to its limit (R78, R79). -/
theorem badSegment_beyond {s : State} (h : s.link.state = .up) (hb : 15 ≤ s.link.errorBudget) :
    s.badSegment = ((s.countTrunk .crcMalformed).mapLink (·.noteBad)).linkDown .errorRate := by
  have hb' : 16 ≤ s.link.errorBudget + 1 := by omega
  simp [State.badSegment, h, LinkController.noteBad, Config.errorLimit, hb']

/-- The segment in reception is in the list of blocks that may change. -/
theorem onlyChanges_reception {changed : List Block} {s t : State} (h : onlyChanges changed s t)
    (hc : .reception ∈ changed) (r : Option Reception) : onlyChanges changed s { t with reception := r } := by
  intro b hb
  have e := h b hb
  cases b <;> first | exact absurd hc hb | exact e

/-- A command released by a DOWN event leaves no segment in reception where there was none (R8). -/
theorem releaseIfDown_reception (before : State) {s : State} (h : s.reception = none) :
    (releaseIfDown before s).reception = none := by
  have applied (c : DeferredCommand) : (s.applyCommand c).reception = none := by
    cases c with
    | linkControl a => simpa [State.applyCommand] using h
    | restart k => cases k <;> simp [State.applyCommand, State.restart, State.restartTraffic, State.restartFull,
        State.restarted, State.offerRestart, State.clearTraffic, State.cold]
  unfold releaseIfDown State.commandOnDown
  split
  · split
    · exact h
    · exact h
    · exact applied _
  · exact h

/-- What a bad segment of an UP link leaves before the budget is judged. -/
theorem noteBad_changes (s : State) :
    onlyChanges [.link, .reception, .counters] s
      (((s.mapReception fun _ => none).countTrunk .crcMalformed).mapLink (·.noteBad)) := by
  intro b hb
  cases b <;> first | rfl | exact absurd (by decide) hb

end Sys2Proof.Machine

open Sys2Proof Sys2Proof.Machine in
/-- Settles O10, by whether the budget stays within its limit. -/
theorem badSegmentsSpendTheErrorBudget : Obligations.BadSegmentsSpendTheErrorBudget := by
  intro s r how hs hr hup hbad
  refine ⟨by rw [Laws.exec_startDelimiterArrival s hs, Laws.exec_segmentReceptionEnd s _ hs], ?_⟩
  rw [Laws.exec_segmentReceptionEnd s how hs, lineSymbol_bad hr hbad]
  rw [openReception_eq how (releaseIfDown_reception s (by simp))]
  have changed := noteBad_changes s
  refine ⟨_, rfl, rfl, fun hb => ?_, fun hb hc => ?_⟩
  · rw [badSegment_within (s := s.mapReception _) hup hb, releaseIfDown_same _ _ (by simp [LinkController.noteBad])]
    exact ⟨rfl, rfl, onlyChanges_reception (onlyChanges_mono changed (by decide)) (by decide) _⟩
  · rw [badSegment_beyond (s := s.mapReception _) hup hb]
    obtain ⟨u, hu⟩ : ∃ u, u = ((s.mapReception fun _ => none).countTrunk .crcMalformed).mapLink (·.noteBad) := ⟨_, rfl⟩
    rw [← hu] at changed ⊢
    have hud : u.link.state ≠ .down := by simp [hu, LinkController.noteBad, hup]
    have hag : u.agent = s.agent := changed .agent (by decide)
    obtain ⟨hmode, -, -, htrunk, -⟩ := (u.linkDown_spec .errorRate hud).2.2.2.2
    rw [releaseIfDown_none _ _ fun c n => by rw [hmode, hag]; exact hc c n]
    obtain ⟨went, settled, only, rest⟩ := linkDown_from .errorRate changed (by simp [hu]) hud
    refine ⟨?_, ?_, settled, onlyChanges_reception only (by decide) _, rest⟩
    · refine (CounterBank.trunkAt_congr htrunk _).trans ?_
      simp [hu]
    · simpa [hu, LinkController.noteBad] using went
end

section
/-! The check on arrival, and that it reads back what the Trunk Transmitter sends (R1, R2, R3, R9, R190). -/

namespace Sys2Proof.Machine

/-! ### The check on arrival as its list of checks (R9) -/

/-- What passes the check says what it is read as. -/
theorem saidBy_of_checkSegment {bs : List Byte} {g : GoodSegment} (h : checkSegment bs = some g) : g.saidBy bs := by
  unfold checkSegment at h
  dsimp only at h
  split at h
  · cases h
  rename_i hbits
  split at h
  · cases h
  split at h
  · cases h
  rename_i hcrc
  rw [Classical.not_not] at hbits hcrc
  split at h
  case h_7 => cases h
  all_goals
    rename_i hkind
    split at h
    case isFalse => cases h
    rename_i hc
    injection h with h
    subst h
  case h_1 => exact ⟨1, 64, 9, hkind, hbits, hc.1, by omega, hcrc, rfl, rfl, rfl, by simp [hc.1], by simp [hc]⟩
  case h_2 => exact ⟨2, 64, 5, hkind, hbits, hc.1, by omega, hcrc, rfl, rfl, rfl, by simp [hc.1], by simp⟩
  case h_3 => exact ⟨3, _, 5, hkind, hbits, rfl, hc.2.2, hcrc, rfl, rfl, rfl, rfl, by simp [hc.1, hc.2.1]⟩
  case h_4 => exact ⟨4, _, 9, hkind, hbits, rfl, hc.2.2.1, hcrc, rfl, rfl, rfl, rfl, by simp [hc]⟩
  case h_5 => exact ⟨8, 8, 5, hkind, hbits, hc.1, by omega, hcrc, rfl, rfl, rfl, rfl⟩
  case h_6 =>
    refine ⟨9, 9, 5, hkind, hbits, hc.1, by omega, hcrc, rfl, rfl, rfl, ?_, rfl⟩
    by_cases h1 : byteAt bs 5 = 1#8
    · simp [h1]
    · have h0 : (byteAt bs 5).toNat ≠ 1 := fun e => h1 (BitVec.eq_of_toNat_eq e)
      simpa [h1] using BitVec.eq_of_toNat_eq (y := 0#8) (by simp only [BitVec.toNat_ofNat]; omega)

/-- What says a good segment passes the check and is read as it. -/
theorem checkSegment_of_saidBy {bs : List Byte} {g : GoodSegment} (h : g.saidBy bs) : checkSegment bs = some g := by
  obtain ⟨kind, p, header, hkind, hbits, hp, hlen, hcrc, hg⟩ := h
  have long : ¬bs.length < 2 := by omega
  unfold checkSegment
  simp only [hbits, hcrc, long, hkind, hp, ne_eq, not_true, if_false]
  cases g with
  | data d =>
    obtain ⟨k, level, tag, seq, stream, length, payload⟩ := d
    dsimp only at hg
    obtain ⟨hlevel, rfl, rfl, rfl, opening, continuing, hstart, hmiddle, hend, hwhole⟩ := hg
    have hl : levelBits (byteAt bs 0) = level := Fin.ext hlevel.symm
    cases k with
    | start =>
      obtain ⟨rfl, rfl, rfl⟩ := opening (.inl rfl)
      obtain ⟨rfl, rfl, hlo, hhi⟩ := hstart rfl
      simp [hlen, hlo, hhi, readOpening, hl, hp]
    | middle =>
      obtain ⟨rfl, rfl, rfl⟩ := continuing (.inl rfl)
      obtain ⟨rfl, rfl⟩ := hmiddle rfl
      simp [hlen, readContinuing, hl, hp]
    | end_ =>
      obtain ⟨rfl, rfl, rfl⟩ := continuing (.inr rfl)
      obtain ⟨rfl, hlo, hhi⟩ := hend rfl
      simp [hlen, hlo, hhi, readContinuing, hl, hp]
    | whole =>
      obtain ⟨rfl, rfl, rfl⟩ := opening (.inr rfl)
      obtain ⟨rfl, hlo, hhi, hw⟩ := hwhole rfl
      simp [hlen, hlo, hhi, hw, readOpening, hl, hp]
  | control q =>
    obtain ⟨rfl, rfl, rfl, rfl⟩ := hg
    simp [hlen, limitsAt]
  | hello y q =>
    obtain ⟨rfl, rfl, rfl, hy, rfl⟩ := hg
    cases y <;> simp [hlen, limitsAt, hy]

/-! ### Bytes at their places -/

theorem halfOf_extract (h : Half) : halfOf (h.extractLsb' 8 8) (h.extractLsb' 0 8) = h := by
  rw [halfOf, BitVec.extractLsb'_append_extractLsb'_eq_extractLsb' (by rfl), BitVec.extractLsb'_eq_self]

@[simp] theorem halfBytes_length (h : Half) : (halfBytes h).length = 2 := rfl

/-- A 16-bit field is read from where its two bytes stand. -/
theorem halfAt_halfBytes (a : List Byte) (h : Half) (b : List Byte) : halfAt (a ++ halfBytes h ++ b) a.length = h := by
  simp [halfAt, byteAt, halfBytes, halfOf_extract]

/-- The CRC stands at the end of the bytes it is made over (R6). -/
theorem withCrc_checks (body : List Byte) :
    (withCrc body).length = body.length + 2 ∧
      crc16 ((withCrc body).take ((withCrc body).length - 2)) = halfAt (withCrc body) ((withCrc body).length - 2) := by
  have hl : (withCrc body).length = body.length + 2 := by simp [withCrc]
  refine ⟨hl, ?_⟩
  have e : halfAt (withCrc body) body.length = crc16 body := by
    simpa [withCrc] using halfAt_halfBytes body (crc16 body) []
  rw [hl, Nat.add_sub_cancel, e]
  simp [withCrc]

theorem kindByte_toNat {code level : Nat} (h : 16 * code + level < 256) : (kindByte code level).toNat = 16 * code + level := by
  simp [kindByte, Nat.mod_eq_of_lt h]

/-! ### The segments of a frame (R3) -/

/-- A segment carries 1 to 64 bytes, and none beyond its frame's end; all but the last carry 64. -/
theorem segmentLength_bounds {n i : Nat} (h1 : 1 ≤ n) (hi : i < segmentCount n) :
    1 ≤ segmentLength n i ∧ segmentLength n i ≤ 64 ∧ 64 * i + segmentLength n i ≤ n ∧
      (i + 1 < segmentCount n → segmentLength n i = 64) ∧ (¬i + 1 < segmentCount n → 64 * i + segmentLength n i = n) := by
  unfold segmentLength segmentCount cellsFor at *
  split at hi <;> rename_i hn <;> simp only [hn, if_true, if_false] <;> split <;> omega

/-- What the kind of a segment says of its length and its frame's. -/
theorem segmentKind_bounds {n i : Nat} (h1 : 1 ≤ n) (hi : i < segmentCount n) :
    (segmentKind n i = .start → segmentLength n i = 64 ∧ 65 ≤ n) ∧ (segmentKind n i = .middle → segmentLength n i = 64) ∧
      (segmentKind n i = .whole → segmentLength n i = n) := by
  obtain ⟨-, -, -, inner, last⟩ := segmentLength_bounds h1 hi
  have several : segmentCount n ≠ 1 → 65 ≤ n := by
    unfold segmentCount
    split <;> omega
  unfold segmentKind
  split
  · rename_i hc
    have h0 : i = 0 := by omega
    refine ⟨nofun, nofun, fun _ => ?_⟩
    have := last (by omega)
    omega
  · rename_i hc
    split
    · exact ⟨fun _ => ⟨inner (by omega), several hc⟩, nofun, nofun⟩
    · split
      · exact ⟨nofun, fun _ => inner ‹_›, nofun⟩
      · exact ⟨nofun, nofun, nofun⟩

/-- The payload of a data segment has its payload length, and is what is left of the frame up to 64 bytes. -/
theorem DataSegment.payload_of_frame {d : DataSegment} (h1 : 1 ≤ d.frame.frameLength)
    (hc : (chainBytes d.frame.cells).length = d.frame.frameLength) (hi : d.index < segmentCount d.frame.frameLength) :
    d.payload.length = d.payloadLength ∧ d.payload = ((chainBytes d.frame.cells).drop (64 * d.index)).take 64 := by
  obtain ⟨-, short, inside, inner, last⟩ := segmentLength_bounds h1 hi
  unfold payload payloadLength
  refine ⟨by simp only [List.length_take, List.length_drop, hc]; omega, ?_⟩
  by_cases hl : d.index + 1 < segmentCount d.frame.frameLength
  · rw [inner hl]
  · have := last hl
    rw [List.take_of_length_le (by simp only [List.length_drop, hc]; omega),
      List.take_of_length_le (by simp only [List.length_drop, hc]; omega)]

/-- What the bytes of a data segment are to be read as. -/
def DataSegment.readAs (d : DataSegment) : RxData :=
  { kind := d.kind, level := d.level, tag := d.tag, seq := d.seq
    stream := if d.kind.opens then d.frame.trunkStream else 0#16
    length := if d.kind.opens then d.frame.frameLength else 0
    payload := d.payload }

/-! ### The segments sent -/

/-- Bytes a data segment carries before its payload: 9 where it opens its frame, else 5. -/
def DataKind.headLength (k : DataKind) : Nat := if k.opens then 9 else 5

/-- The places of a data segment's fields (R190). -/
theorem DataSegment.bytes_fields (d : DataSegment) :
    byteAt (withCrc d.body) 0 = kindByte d.kind.code d.level.val ∧ byteAt (withCrc d.body) 1 = d.tag ∧
      halfAt (withCrc d.body) 2 = d.seq ∧ byteAt (withCrc d.body) 4 = BitVec.ofNat 8 d.payloadLength ∧
      d.body.length = d.kind.headLength + d.payload.length ∧
      (withCrc d.body).drop d.kind.headLength = d.payload ++ halfBytes (crc16 d.body) ∧
      (d.kind.opens = true →
        halfAt (withCrc d.body) 5 = d.frame.trunkStream ∧
          halfAt (withCrc d.body) 7 = BitVec.ofNat 16 d.frame.frameLength) := by
  refine ⟨rfl, rfl, halfOf_extract _, rfl, ?_⟩
  have open_or_not : d.kind.opens = true ∨ d.kind.opens = false := by cases d.kind.opens <;> simp
  rcases open_or_not with ho | ho
  · have body : d.body = [kindByte d.kind.code d.level.val, d.tag] ++ halfBytes d.seq ++
        [BitVec.ofNat 8 d.payloadLength] ++
        (halfBytes d.frame.trunkStream ++ halfBytes (BitVec.ofNat 16 d.frame.frameLength)) ++ d.payload := by
      simp [DataSegment.body, ho]
    refine ⟨by simp [body, DataKind.headLength, ho]; omega, ?_, fun _ => ⟨?_, ?_⟩⟩
    · simp [withCrc, body, DataKind.headLength, ho, halfBytes]
    · rw [body]; exact halfOf_extract _
    · rw [body]; exact halfOf_extract _
  · have body : d.body = [kindByte d.kind.code d.level.val, d.tag] ++ halfBytes d.seq ++
        [BitVec.ofNat 8 d.payloadLength] ++ d.payload := by
      simp [DataSegment.body, ho]
    refine ⟨by simp [body, DataKind.headLength, ho]; omega, ?_, fun h => by simp [ho] at h⟩
    simp [withCrc, body, DataKind.headLength, ho, halfBytes]

/-- A data segment of a frame of 1 to 1536 bytes says what it was made from (R1, R190). -/
theorem DataSegment.readAs_saidBy {d : DataSegment} (h1 : 1 ≤ d.frame.frameLength) (h2 : d.frame.frameLength ≤ 1536)
    (hc : (chainBytes d.frame.cells).length = d.frame.frameLength) (hi : d.index < segmentCount d.frame.frameLength)
    (hk : d.kind = segmentKind d.frame.frameLength d.index) :
    (GoodSegment.data d.readAs).saidBy (Segment.data d).bytes := by
  obtain ⟨hpos, hshort, -⟩ := segmentLength_bounds h1 hi
  obtain ⟨hstart, hmiddle, hwhole⟩ := segmentKind_bounds h1 hi
  rw [← hk] at hstart hmiddle hwhole
  obtain ⟨hlen, hcrc⟩ := withCrc_checks d.body
  obtain ⟨hkind, htag, hseq, hp, hbody, hdrop, hopen⟩ := d.bytes_fields
  have hpay := (d.payload_of_frame h1 hc hi).1
  have hcode : d.kind.code ≤ 4 := by cases d.kind <;> decide
  have hfirst : (byteAt (withCrc d.body) 0).toNat = 16 * d.kind.code + d.level.val :=
    hkind ▸ kindByte_toNat (by omega)
  have hlevel := d.level.isLt
  have hp' : (byteAt (withCrc d.body) 4).toNat = d.payloadLength := by
    rw [hp, BitVec.toNat_ofNat]
    exact Nat.mod_eq_of_lt (by unfold DataSegment.payloadLength; omega)
  have hsize : (BitVec.ofNat 16 d.frame.frameLength).toNat = d.frame.frameLength := by
    rw [BitVec.toNat_ofNat]
    exact Nat.mod_eq_of_lt (by omega)
  refine ⟨d.kind.code, d.payloadLength, d.kind.headLength, ?_, ?_, hp', ?_, hcrc, ?_, htag.symm, hseq.symm, ?_, ?_⟩
  · show (byteAt (withCrc d.body) 0).toNat / 16 = _
    omega
  · show (byteAt (withCrc d.body) 0).toNat / 4 % 4 = 0
    omega
  · show (withCrc d.body).length = _
    omega
  · show d.level.val = (byteAt (withCrc d.body) 0).toNat % 4
    omega
  · show d.payload = ((withCrc d.body).drop d.kind.headLength).take d.payloadLength
    rw [hdrop, ← hpay, List.take_left']
    rfl
  · unfold DataSegment.readAs DataSegment.payloadLength
    dsimp only
    cases hd : d.kind with
    | start =>
      obtain ⟨e5, e7⟩ := hopen (by rw [hd]; rfl)
      have e7' := (congrArg BitVec.toNat e7).trans hsize
      simpa [Segment.bytes, Segment.body, DataKind.headLength, DataKind.opens, DataKind.code, hstart hd, h2] using
        And.intro e5.symm e7'.symm
    | middle => simp [DataKind.headLength, DataKind.opens, DataKind.code, hmiddle hd]
    | end_ => simp [DataKind.headLength, DataKind.opens, DataKind.code, hpos, hshort]
    | whole =>
      obtain ⟨e5, e7⟩ := hopen (by rw [hd]; rfl)
      have e7' := (congrArg BitVec.toNat e7).trans hsize
      have hall := hwhole hd
      simpa [Segment.bytes, Segment.body, DataKind.headLength, DataKind.opens, DataKind.code, hall, h1] using
        And.intro (And.intro e5.symm e7'.symm) (hall ▸ hshort)

/-- The limits of a CONTROL or HELLO stand one after the other (R2). -/
theorem limitsAt_limitBytes (q : Four Half) (a b : List Byte) : limitsAt (a ++ limitBytes q ++ b) a.length = q := by
  obtain ⟨q0, q1, q2, q3⟩ := q
  have at0 := halfAt_halfBytes a q0 (halfBytes q1 ++ halfBytes q2 ++ halfBytes q3 ++ b)
  have at1 := halfAt_halfBytes (a ++ halfBytes q0) q1 (halfBytes q2 ++ halfBytes q3 ++ b)
  have at2 := halfAt_halfBytes (a ++ halfBytes q0 ++ halfBytes q1) q2 (halfBytes q3 ++ b)
  have at3 := halfAt_halfBytes (a ++ halfBytes q0 ++ halfBytes q1 ++ halfBytes q2) q3 b
  simp only [List.length_append, halfBytes_length, List.append_assoc, Nat.reduceAdd] at at0 at1 at2 at3
  simp only [limitsAt, limitBytes, List.append_assoc, at0, at1, at2, at3]

theorem control_saidBy (q : Four Half) : (GoodSegment.control q).saidBy (Segment.control q).bytes := by
  obtain ⟨hlen, hcrc⟩ := withCrc_checks (Segment.control q).body
  have kind : (kindByte 8 0).toNat / 16 = 8 := by decide
  have unused : (kindByte 8 0).toNat / 4 % 4 = 0 := by decide
  refine ⟨8, 8, 5, kind, unused, rfl, hlen, hcrc, rfl, rfl, rfl, ?_⟩
  have read := limitsAt_limitBytes q [kindByte 8 0, 0#8, 0#8, 0#8, 8#8] (halfBytes (crc16 (Segment.control q).body))
  exact read.symm

theorem hello_saidBy (y : Bool) (q : Four Half) : (GoodSegment.hello y q).saidBy (Segment.hello y q).bytes := by
  obtain ⟨hlen, hcrc⟩ := withCrc_checks (Segment.hello y q).body
  have kind : (kindByte 9 0).toNat / 16 = 9 := by decide
  have unused : (kindByte 9 0).toNat / 4 % 4 = 0 := by decide
  refine ⟨9, 9, 5, kind, unused, rfl, hlen, hcrc, rfl, rfl, rfl, ?_, ?_⟩
  · cases y <;> rfl
  · have read := limitsAt_limitBytes q [kindByte 9 0, 0#8, 0#8, 0#8, 9#8, flagBit y 0]
      (halfBytes (crc16 (Segment.hello y q).body))
    exact read.symm

end Sys2Proof.Machine

open Sys2Proof Sys2Proof.Machine in
/-- Settles O59: a segment passes the check when it says what it is read as, and every segment sent does. -/
theorem sentSegmentsAreReadBack : Obligations.SentSegmentsAreReadBack := by
  refine ⟨fun bytes g => ⟨saidBy_of_checkSegment, checkSegment_of_saidBy⟩, fun d h1 h2 hc hi hk => ?_, fun q => ?_,
    fun y q => ?_⟩
  · rw [checkSegment_of_saidBy (DataSegment.readAs_saidBy h1 h2 hc hi hk), ← (d.payload_of_frame h1 hc hi).2]
    rfl
  · exact checkSegment_of_saidBy (control_saidBy q)
  · exact checkSegment_of_saidBy (hello_saidBy y q)
end

section
/-! What the restarts leave, block by block (R12, R41, R42, R63, R64, R90, R99, R120, R132, R176, R177, R187, R188). -/

namespace Sys2Proof.Machine

namespace State

/-! ### Cold start and FULL restart -/

/-- The one record of a cold part: RESTART with its cause, number 0 and time 0 (R179, R188). -/
def restartRecord (cause : RestartCause) : EventRecord :=
  { sequence := 0#16, time := 0#32, kind := .restart, subject := .none, stream := none, detail := BitVec.ofNat 16 cause.code }

/-- The blocks after a cold start or a FULL restart (R120, R154, R177, R188). -/
@[simp] theorem restarted_blocks (pins : Pins) (signal : Bool) (cause : RestartCause) (trunkTx : TrunkTx)
    (egress : Four EgressPort) (n : Nat) (q : List Instr) :
    (restarted pins signal cause trunkTx egress n q).pins = pins ∧
      (restarted pins signal cause trunkTx egress n q).sprs = (Four.make fun p => Spr.afterRestart (pins.frameValid.get p)) ∧
      (restarted pins signal cause trunkTx egress n q).txPool = TxPool.cold ∧
      (restarted pins signal cause trunkTx egress n q).sched = Scheduler.cold ∧
      (restarted pins signal cause trunkTx egress n q).trunkTx = trunkTx ∧
      (restarted pins signal cause trunkTx egress n q).reception = none ∧
      (restarted pins signal cause trunkTx egress n q).link =
        { LinkController.cold signal with holdOff := if signal then some 10000#32 else none } ∧
      (restarted pins signal cause trunkTx egress n q).reasm = Reassembler.cold ∧
      (restarted pins signal cause trunkTx egress n q).rxPool = RxPool.cold ∧
      (restarted pins signal cause trunkTx egress n q).egress = egress ∧
      (restarted pins signal cause trunkTx egress n q).config = ConfigStore.cold ∧
      (restarted pins signal cause trunkTx egress n q).agent = Agent.cold ∧
      (restarted pins signal cause trunkTx egress n q).events = { records := [restartRecord cause], nextSeq := 1#16 } ∧
      (restarted pins signal cause trunkTx egress n q).counters = CounterBank.cold ∧
      (restarted pins signal cause trunkTx egress n q).time =
        { timeBase := 0#32, lastCause := cause, lastTrafficTime := 0#32, trafficRestarts := 0#32 } ∧
      (restarted pins signal cause trunkTx egress n q).freeCount = n ∧
      (restarted pins signal cause trunkTx egress n q).pending = q := by
  obtain ⟨u, hu⟩ : ∃ u, u = (((State.cold pins signal cause n q).mapTrunkTx fun _ => trunkTx).mapEgress
    fun _ => egress).startHoldOff := ⟨_, rfl⟩
  have quiet : u.config.active.part.noticeEnabled = false := by
    simp [hu, State.cold, ConfigStore.cold, Bank.default, PartSettings.default]
  obtain ⟨hagent, hcounters, hpool, hegress⟩ :=
    u.offerEvent_quiet .restart .none none (BitVec.ofNat 16 u.time.lastCause.code) quiet
  have hevents := u.offerEvent_accepted .restart .none none (BitVec.ofNat 16 u.time.lastCause.code)
    (by simp [hu, State.cold])
  have link : u.link = { LinkController.cold signal with holdOff := if signal then some 10000#32 else none } := by
    cases signal <;>
      simp [hu, startHoldOff, State.cold, LinkController.cold, holdOffFromNow, timeAfter, Config.holdOffTime, now]
  unfold restarted offerRestart
  rw [← hu]
  simp only [offerEvent_frame, hagent, hcounters, hpool, hegress, hevents, link]
  simp [hu, State.cold, EventQueue.accept, makeRecord, restartRecord, now]

/-- The line of a running part whose slots are emptied by a restart (R12). -/
theorem trunkTransmitLine_restart (t : State) (k : TrunkTx) (h : t.running) (e : t.trunkTx = k.restart) :
    t.trunkTransmitLine = if k.inFlight.isSome = true ∨ k.cutOff = true then .endDelimiter else .idleFill := by
  unfold State.running at h
  cases hc : k.cutOff <;> cases hi : k.inFlight <;> simp [trunkTransmitLine, h, e, hc, hi]

/-- A receiver after a restart (R99). -/
theorem afterRestart_state (high : Bool) : (Spr.afterRestart high).state = if high then .skipping else .idle := rfl

theorem cutOff_state (e : EgressPort) : e.cutOff.state = if e.state = .sending then .idleGap else e.state := by
  unfold EgressPort.cutOff
  cases e.state <;> rfl

/-- What `trafficCleared` asks of a state, by the blocks that a restart of any kind sets. -/
theorem trafficCleared_of_blocks {u t : State} {now : Time} {generation : Half}
    (hpins : t.pins.frameValid = u.pins.frameValid)
    (hsprs : t.sprs = Four.make fun p => Spr.afterRestart (u.pins.frameValid.get p)) (htx : t.txPool = TxPool.cold)
    (hlevel : t.rxPool.levelPart = RxPool.cold.levelPart) (hflag : t.rxPool.exhaustionReported = false)
    (hheld : ∀ l, t.rxPool.heldCells l = 0) (hsched : t.sched = Scheduler.cold) (hin : t.trunkTx.inFlight = none)
    (hlatch : t.trunkTx.latch = none) (hrec : t.reception = none) (hreasm : t.reasm = Reassembler.cold)
    (hlink : t.link =
      { LinkController.cold u.link.signal with
        generation := generation, holdOff := if u.link.signal then some (now + 10000#32) else none })
    (htime : t.time.timeBase = now) (hmode : t.agent.mode = .ready) (hpeers : t.agent.peers = []) :
    trafficCleared u t := by
  unfold trafficCleared
  simp [hpins, hsprs, htx, hlevel, hflag, hheld, hsched, hin, hlatch, hrec, hreasm, hlink, htime, hmode, hpeers,
    afterRestart_state, TxPool.cold, RxPool.cold, Scheduler.cold, Reassembler.cold, LinkController.cold]

theorem fullyRestarted_restartFull (u : State) (hr : u.running) : fullyRestarted u u.restartFull := by
  have line : u.restartFull.trunkTransmitLine =
      if u.trunkTx.inFlight.isSome = true ∨ u.trunkTx.cutOff = true then .endDelimiter else .idleFill :=
    trunkTransmitLine_restart _ _ (by simpa [restartFull, State.running] using hr) (by simp [restartFull])
  refine ⟨?_, ?_, ?_, line, ?_, ?_, ?_⟩
  · refine trafficCleared_of_blocks (now := 0#32) (generation := 0#16) ?_ ?_ ?_ ?_ ?_ ?_ ?_ ?_ ?_ ?_ ?_ ?_ ?_ ?_ ?_ <;>
      simp [restartFull, RxPool.cold, RxPool.heldCells, Agent.cold, LinkController.cold]
  · simp [allReset, restartFull, ConfigStore.cold, RxPool.cold, Agent.cold, LinkController.cold, restartRecord,
      cutOffAll, EgressPort.cutOff]
  · simp [restartFull]
  · simp [restartFull, cutOffAll, cutOff_state]
  · simp [restartFull]
  · simp [restartFull]

/-! ### Frames of the management reserve built since (R112) -/

end State

/-- Every descriptor in use is of the management reserve. -/
def RxPool.reserveOnly (p : RxPool) : Prop := ∀ e ∈ p.descs, e.2.cls = .reserve

theorem RxPool.heldCells_of_reserveOnly {p : RxPool} (h : p.reserveOnly) (l : Level) : p.heldCells l = 0 := by
  unfold RxPool.heldCells
  refine List.sum_eq_zero_iff_forall_eq_nat.2 fun x hx => ?_
  obtain ⟨e, he, rfl⟩ := List.mem_map.1 hx
  simp [RxDescriptor.ofLevel, h e he]

theorem RxPool.claimReserve_reserveOnly {p q : RxPool} {stream : Half} {bs : List Byte} {n : Nat} (h : p.reserveOnly)
    (e : p.claimReserve stream bs = some (n, q)) : q.reserveOnly := by
  unfold RxPool.claimReserve at e
  split at e
  · cases e
  · split at e
    · injection e with e
      injection e with _ e
      subst e
      intro x hx
      rcases mem_sparseInsert _ _ _ _ hx with rfl | hx
      · rfl
      · exact h x hx
    · cases e

namespace State

variable {s : State}

theorem placeReserve_reserveOnly {t : State} {p : Port} {stream : Half} {bs : List Byte} {n : Nat}
    (h : s.rxPool.reserveOnly) (e : s.placeReserve p stream bs = some (n, t)) : t.rxPool.reserveOnly := by
  unfold placeReserve at e
  split at e
  · cases e
  · rename_i n' pool claimed
    injection e with e
    injection e with _ e
    subst e
    simpa using RxPool.claimReserve_reserveOnly h claimed

theorem offerEvent_reserveOnly (k : EventKind) (b : Subject) (n : Option Half) (d : Half) (h : s.rxPool.reserveOnly) :
    (s.offerEvent k b n d).rxPool.reserveOnly := by
  have accepted (r : EventRecord) : (s.acceptRecord r).rxPool.reserveOnly := by
    unfold acceptRecord noticeCheck sendNotice
    split
    · split
      · exact h
      · rename_i placed
        have kept := placeReserve_reserveOnly (by simpa using h) placed
        simpa using kept
    · exact h
  unfold offerEvent
  repeat' split
  · exact accepted _
  · exact h
  · exact accepted _

theorem answerPeers_reserveOnly (a : Status) (es : List PeerEntry) (h : s.rxPool.reserveOnly) :
    (es.foldl (answerPeer a) s).rxPool.reserveOnly := by
  induction es generalizing s with
  | nil => exact h
  | cons e es ih =>
    refine ih ?_
    unfold answerPeer localReply
    split
    · exact h
    · rename_i placed
      have kept := placeReserve_reserveOnly (by simpa using h) placed
      simpa using kept

/-- A peer answered while the reserve has a descriptor and a cell: the reply is counted and takes one of each (R112,
R174). -/
theorem answerPeer_granted (a : Status) (e : PeerEntry) (hd : 1 ≤ s.rxPool.reserve.freeDescs.length)
    (hc : 1 ≤ s.rxPool.reserve.freeCells.length) :
    (answerPeer a s e).counters = s.counters.plusMgmt .replies ∧
      (answerPeer a s e).rxPool.reserve.freeDescs = s.rxPool.reserve.freeDescs.tail ∧
      (answerPeer a s e).rxPool.reserve.freeCells = s.rxPool.reserve.freeCells.tail := by
  have hl : (replyBytes e.originalTag e.command a []).length = 5 := replyBytes_length ..
  obtain ⟨n, t, placed, ⟨-, hdescs, hcells, -⟩, only⟩ :=
    s.placeReserve_of_grants e.port e.replyStream (replyBytes e.originalTag e.command a [])
      ⟨List.ne_nil_of_length_pos hd, by rw [hl]; exact hc⟩
  have counters : t.counters = s.counters := only .counters (by decide)
  have tail : s.rxPool.reserve.freeCells.drop (cellsFor 5) = s.rxPool.reserve.freeCells.tail := List.drop_one
  simp [answerPeer, localReply, placed, counters, hdescs, hcells, hl, tail]

/-- With room for all in the reserve every pending peer's answer is counted (R174). -/
theorem answerPeers_counted (a : Status) (es : List PeerEntry) (hd : es.length ≤ s.rxPool.reserve.freeDescs.length)
    (hc : es.length ≤ s.rxPool.reserve.freeCells.length) :
    mgmtCounted s (es.foldl (answerPeer a) s) .replies es.length := by
  induction es generalizing s with
  | nil => simp [mgmtCounted]
  | cons e es ih =>
    simp only [List.length_cons] at hd hc
    obtain ⟨counters, descs, cells⟩ := s.answerPeer_granted a e (by omega) (by omega)
    have rest := ih (s := answerPeer a s e) (by rw [descs, List.length_tail]; omega)
      (by rw [cells, List.length_tail]; omega)
    unfold mgmtCounted at rest ⊢
    rw [List.foldl_cons, rest, counters]
    simp [BitVec.add_assoc, BitVec.ofNat_add, BitVec.add_comm]

/-! ### TRAFFIC restart -/

/-- The state of a TRAFFIC restart before its peers are answered: the traffic side is clear and the restart-cause record
written (R176, R187). -/
def trafficEmptied (u : State) : State :=
  (if u.link.state = .down then u else u.countTrunk (.linkDowns .restart)).clearTraffic.mapTime (·.trafficRestart)

theorem restartTraffic_eq (u : State) :
    u.restartTraffic = (u.agent.peers.foldl (answerPeer .linkDown) u.trafficEmptied).offerRestart := rfl

/-- The blocks of that state. -/
@[simp] theorem trafficEmptied_blocks (u : State) :
    u.trafficEmptied.pins = u.pins ∧
      u.trafficEmptied.sprs = (Four.make fun p => Spr.afterRestart (u.pins.frameValid.get p)) ∧
      u.trafficEmptied.txPool = TxPool.cold ∧ u.trafficEmptied.sched = Scheduler.cold ∧
      u.trafficEmptied.trunkTx = u.trunkTx.restart ∧ u.trafficEmptied.reception = none ∧
      u.trafficEmptied.link = u.trafficController ∧ u.trafficEmptied.reasm = Reassembler.cold ∧
      u.trafficEmptied.rxPool = RxPool.cold ∧ u.trafficEmptied.egress = cutOffAll u.egress ∧
      u.trafficEmptied.config = u.config ∧ u.trafficEmptied.agent = { u.agent with mode := .ready, peers := [] } ∧
      u.trafficEmptied.events = u.events ∧
      u.trafficEmptied.counters =
        (if u.link.state = .down then u.counters else u.counters.plusTrunk (.linkDowns .restart)) ∧
      u.trafficEmptied.time = u.time.trafficRestart ∧ u.trafficEmptied.freeCount = u.freeCount ∧
      u.trafficEmptied.pending = u.pending := by
  unfold trafficEmptied
  split <;> simp [clearTraffic, trafficController, holdOffFromNow, now]

/-- Emptying the traffic side counts nothing but the link-down event. -/
theorem trafficEmptied_counters (u : State) :
    u.trafficEmptied.counters.port = u.counters.port ∧ u.trafficEmptied.counters.level = u.counters.level ∧
      u.trafficEmptied.counters.hits = u.counters.hits ∧
      ∀ c, u.trafficEmptied.counters.mgmtAt c = u.counters.mgmtAt c := by
  have e := u.trafficEmptied_blocks
  simp only [e]
  split <;> simp

/-- The state of a TRAFFIC restart before its RESTART record: the pending peers are answered. -/
def peersAnsweredDown (u : State) : State := u.agent.peers.foldl (answerPeer .linkDown) u.trafficEmptied

theorem trafficCleared_restartTraffic (u : State) : trafficCleared u u.restartTraffic := by
  have reserveOnly : u.restartTraffic.rxPool.reserveOnly := by
    rw [restartTraffic_eq]
    exact offerEvent_reserveOnly _ _ _ _ (answerPeers_reserveOnly _ _ (by simp [RxPool.reserveOnly, RxPool.cold]))
  refine trafficCleared_of_blocks (now := u.now) (generation := u.link.generation) ?_ ?_ ?_ ?_ ?_
    (RxPool.heldCells_of_reserveOnly reserveOnly) ?_ ?_ ?_ ?_ ?_ ?_ ?_ ?_ ?_ <;>
    simp [restartTraffic_eq, offerRestart, trafficController, holdOffFromNow, timeAfter, TimeBlock.trafficRestart, now,
      Config.holdOffTime, RxPool.cold]

/-- Each pending peer's answer is counted: the reserve is free, and the RESTART record counts no reply (R174, R176). -/
theorem restartTraffic_replies (u : State) (few : u.agent.peers.length ≤ 4) :
    mgmtCounted u u.restartTraffic .replies u.agent.peers.length := by
  have answers : mgmtCounted u.trafficEmptied u.peersAnsweredDown .replies u.agent.peers.length :=
    answerPeers_counted _ _ (by simpa [RxPool.cold] using few) (by simp [RxPool.cold]; omega)
  obtain ⟨-, -, -, kept⟩ := u.trafficEmptied_counters
  unfold mgmtCounted at answers ⊢
  rw [← kept, ← answers]
  exact offerEvent_mgmtCounter _ _ _ _ _ _ (by decide) (by decide)

theorem restartTraffic_record (u : State) : recordAccepted u u.restartTraffic .restart .none none 4#16 := by
  have record := u.peersAnsweredDown.recordAccepted_offerEvent .restart .none none
    (BitVec.ofNat 16 u.peersAnsweredDown.time.lastCause.code)
  simpa [recordAccepted, peersAnsweredDown, restartTraffic_eq, offerRestart, TimeBlock.trafficRestart, RestartCause.code]
    using record

/-- With no peers to answer and notices off no reserve frame is built (R112). -/
theorem restartTraffic_quiet (u : State) (none : u.agent.peers = []) (quiet : u.noNotices) :
    u.restartTraffic.egress = cutOffAll u.egress ∧ u.restartTraffic.rxPool = RxPool.cold := by
  rw [restartTraffic_eq, none]
  obtain ⟨-, -, pool, egress⟩ := u.trafficEmptied.offerEvent_quiet .restart .none Option.none
    (BitVec.ofNat 16 u.trafficEmptied.time.lastCause.code) (by simpa [noNotices] using quiet)
  exact ⟨egress.trans (by simp), pool.trans (by simp)⟩

theorem trafficRestarted_restartTraffic (u : State) (hr : u.running) : trafficRestarted u u.restartTraffic := by
  have line : u.restartTraffic.trunkTransmitLine =
      if u.trunkTx.inFlight.isSome = true ∨ u.trunkTx.cutOff = true then .endDelimiter else .idleFill :=
    trunkTransmitLine_restart _ _ (by simpa [restartTraffic_eq, offerRestart, State.running] using hr)
      (by simp [restartTraffic_eq, offerRestart])
  obtain ⟨port, level, hits, -⟩ := u.trafficEmptied_counters
  refine ⟨u.trafficCleared_restartTraffic, ?_, ?_, line, ?_, ?_, ?_, ?_, ?_, ?_, ?_, ?_, u.restartTraffic_replies,
    u.restartTraffic_record, ?_, ?_, fun none quiet => ?_⟩
  · simp [restartTraffic_eq, offerRestart]
  · simp [restartTraffic_eq, offerRestart]
  · simp [restartTraffic_eq, offerRestart, trafficController]
  · simp [restartTraffic_eq, offerRestart]
  · simp [restartTraffic_eq, offerRestart]
  · simp [restartTraffic_eq, offerRestart, TimeBlock.trafficRestart]
  · simpa only [restartTraffic_eq, offerRestart, offerEvent_inside, answerPeers_inside] using port
  · simpa only [restartTraffic_eq, offerRestart, offerEvent_inside, answerPeers_inside] using level
  · simpa only [restartTraffic_eq, offerRestart, offerEvent_inside, answerPeers_inside] using hits
  · simp [restartTraffic_eq, offerRestart]
  · simp [restartTraffic_eq, offerRestart]
  · simp [restartTraffic_eq, offerRestart]
  · obtain ⟨egress, pool⟩ := u.restartTraffic_quiet none quiet
    have queues (e : EgressPort) : e.cutOff.queue = [] := rfl
    simp [egress, pool, RxPool.cold, cutOffAll, cutOff_state, queues]

/-! ### A deferred command whose reply is lost (R112, R157, R167, R168) -/

/-- A RESTART at the head of the queue whose reply the reserve cannot grant takes effect at once, the reply counted as
dropped. -/
theorem executeHead_restart_replyLost {r : Request} {p : Port} {b : Byte} {kind : RestartKind} (h : s.hasAtHead r p 11#8)
    (lost : ¬s.reserveGrants 5) (arg : r.args.head? = some b) (code : restartKindOf b = some kind) :
    s.executeHead r = s.replyLost.restart kind := by
  obtain ⟨-, ready, -, station, isLocal, command⟩ := h
  obtain ⟨rest, args⟩ : ∃ rest, r.args = b :: rest := List.head?_eq_some_iff.1 arg
  have dropped : s.withoutHead.reply r .ok [] = (s.replyLost, none) := by
    have hl : (replyBytes r.tag r.command .ok []).length = 5 := replyBytes_length ..
    have refused := s.withoutHead.placeReserve_of_not_grants p r.replyStream (replyBytes r.tag r.command .ok [])
      (by rw [hl]; exact lost)
    simp only [reply, station, localReply, refused]
    rfl
  have stillReady : (s.replyLost.mapAgent fun a => { a with mode := .ready }) = s.replyLost := by
    simp [mapAgent, replyLost, withoutHead, ← ready]
  have command_is : s.executeHead r = s.withoutHead.deferCommand r (some (.restart kind)) := by
    rw [show s.executeHead r = s.withoutHead.executeRequest r from rfl]
    simp [executeRequest, station, isLocal, executeLocal, requiredArgs, command, args, carryOut, byteAt, code]
  simp only [command_is, deferCommand, dropped, deferOrApply, applyCommand, stillReady]

end State
end Sys2Proof.Machine

open Sys2Proof Sys2Proof.Machine in
/-- Settles O48: the reply lost, the execution is the restart itself, whose blocks are those the two lemmas name. -/
theorem restartsClearTheirBlocks : Obligations.RestartsClearTheirBlocks := by
  intro s r p h lost
  obtain ⟨running, ready, head, station, isLocal, command⟩ := id h
  have stillRuns : s.replyLost.running := running
  have named {n : Nat} (arg : r.args.head?.map BitVec.toNat = some n) : Request.isLocalWith 11 n r = true := by
    simp [Request.isLocalWith, Request.isLocal, isLocal, command, arg]
  refine ⟨fun arg => ⟨s.replyLost.restartTraffic, ?_, State.trafficRestarted_restartTraffic _ stillRuns⟩,
    fun arg => ⟨s.replyLost.restartFull, ?_, State.fullyRestarted_restartFull _ stillRuns⟩⟩
  · rw [Laws.exec_trafficRestart _ running, s.executeIf_head r _ ready head (named (by simp [arg])),
      State.executeHead_restart_replyLost h lost arg (kind := .traffic) rfl]
    rfl
  · rw [Laws.exec_fullRestart _ running, s.executeIf_head r _ ready head (named (by simp [arg])),
      State.executeHead_restart_replyLost h lost arg (kind := .full) rfl]
    rfl

end

section
/-! REQUEST_PEER_FORWARDING: the local tag chosen, the frame relayed, the refusals (R106, R111, R158, R159, R171). -/

namespace Sys2Proof.Machine

/-! ### The local tag (R171) -/

/-- The value a number of places after the next local tag, modulo 256. -/
def Agent.tagAfter (a : Agent) (k : Nat) : Byte := a.nextLocalTag + BitVec.ofNat 8 k

theorem Agent.tagAfter_inj {a : Agent} {i j : Nat} (hi : i < 256) (hj : j < 256) (e : a.tagAfter i = a.tagAfter j) :
    i = j := by
  unfold tagAfter at e
  have e' := congrArg BitVec.toNat e
  simp only [BitVec.toNat_add, BitVec.toNat_ofNat] at e'
  omega

/-- Fewer than four entries cannot hold four tags. -/
theorem Agent.exists_tag_free {a : Agent} (few : a.peers.length < 4) : ∃ k < 4, ∀ e ∈ a.peers, e.localTag ≠ a.tagAfter k := by
  refine Classical.byContradiction fun none => ?_
  have taken : ∀ k < 4, ∃ e ∈ a.peers, e.localTag = a.tagAfter k := fun k hk =>
    Classical.byContradiction fun free => none ⟨k, hk, fun e he same => free ⟨e, he, same⟩⟩
  have nodup : ((List.range 4).map a.tagAfter).Nodup := by
    refine List.pairwise_map.2 (List.pairwise_lt_range.imp_of_mem fun {i j} hi hj lt e => ?_)
    have bounds := And.intro (List.mem_range.1 hi) (List.mem_range.1 hj)
    have := tagAfter_inj (by omega) (by omega) e
    omega
  have held : (List.range 4).map a.tagAfter ⊆ a.peers.map (·.localTag) := by
    intro t ht
    obtain ⟨k, hk, rfl⟩ := List.mem_map.1 ht
    exact List.mem_map.2 (taken k (List.mem_range.1 hk))
  have := nodup.length_le_of_subset held
  simp only [List.length_map, List.length_range] at this
  omega

/-- The tag chosen is the first from the next local tag on that no entry holds. -/
theorem Agent.chooseTag_first {a : Agent} (few : a.peers.length < 4) :
    ∃ k ≤ 3, a.chooseTag = a.tagAfter k ∧ (∀ e ∈ a.peers, e.localTag ≠ a.tagAfter k) ∧
      ∀ j < k, ∃ e ∈ a.peers, e.localTag = a.tagAfter j := by
  obtain ⟨m, hm, free⟩ := exists_tag_free few
  obtain ⟨k, hk⟩ : ∃ k, (List.range 5).find? (fun j => a.peers.all fun e => !decide (e.localTag = a.tagAfter j)) = some k :=
    Option.isSome_iff_exists.1 (List.find?_isSome.2 ⟨m, List.mem_range.2 (by omega), by simpa using free⟩)
  obtain ⟨found, -, before⟩ := List.find?_range_eq_some.1 hk
  have held : ∀ j < k, ∃ e ∈ a.peers, e.localTag = a.tagAfter j := by simpa using before
  refine ⟨k, ?_, ?_, by simpa using found, held⟩
  · refine Nat.le_of_not_lt fun late => ?_
    obtain ⟨e, he, same⟩ := held m (by omega)
    exact free e he same
  · unfold chooseTag
    rw [List.find?_map]
    exact congrArg (fun o => (Option.map a.tagAfter o).getD a.nextLocalTag) hk

/-- Agents that agree on all else differ at most in the notice latch. -/
theorem Agent.eq_up_to_latch {a b : Agent} (mode : a.mode = b.mode) (requests : a.requests = b.requests)
    (peers : a.peers = b.peers) (tag : a.nextLocalTag = b.nextLocalTag) : a = { b with noticeLatch := a.noticeLatch } := by
  cases a
  cases b
  simp only [Agent.mk.injEq, and_true]
  exact ⟨mode, requests, peers, tag⟩

namespace State

variable {s : State}

/-! ### Execution and refusal (R158, R159) -/

theorem onlyChanges_withoutHead : onlyChanges [.agent] s s.withoutHead := by
  intro b hb
  cases b <;> first | rfl | exact absurd (by decide) hb

theorem executeHead_peer {r : Request} {p : Port} (station : r.source = .station p) (peer : r.type = 1#8) :
    s.executeHead r = s.withoutHead.forward r p := by
  rw [show s.executeHead r = s.withoutHead.executeRequest r from rfl]
  simp [executeRequest, station, peer]

/-- A refusal sent to a station port touches the reserve, the port's queue and the counters. -/
theorem refuse_onlyChanges {r : Request} {p : Port} (station : r.source = .station p) (status : Status) :
    onlyChanges [.rxPool, .egress, .counters] s (s.refuse r status) := by
  intro b hb
  cases b <;> first | exact absurd (by decide) hb | simp [Block.same, refuse, reply, station]

/-- A request-peer refused with nothing done. -/
theorem refuse_replied {r : Request} {p : Port} (station : r.source = .station p) (status : Status) :
    replied s s.counters s.agent.noticeLatch (s.withoutHead.refuse r status) r p status [] ∧
      onlyChanges [.rxPool, .egress, .agent, .counters] s (s.withoutHead.refuse r status) := by
  refine ⟨(s.reply_replied s.withoutHead r p s.agent.noticeLatch status [] station rfl rfl rfl).1, ?_⟩
  exact onlyChanges_trans (onlyChanges_mono onlyChanges_withoutHead (by decide))
    (onlyChanges_mono (refuse_onlyChanges station status) (by decide))

/-! ### A failed claim (R106, R111) -/

/-- Of the Agent a failed claim can set the notice latch alone. -/
theorem agentClaimFailed_agent (n : Nat) :
    (s.agentClaimFailed n).agent = { s.agent with noticeLatch := (s.agentClaimFailed n).agent.noticeLatch } := by
  unfold agentClaimFailed txClaimFailed
  split
  · simp
  · exact Agent.eq_up_to_latch (by simp) (by simp) (by simp) (by simp)

/-- The resource short, where one alone is. -/
theorem shortResource_code {bytes : Nat} (short : s.poolShort bytes) :
    (s.shortResource (cellsFor bytes) = 1 ∨ s.shortResource (cellsFor bytes) = 2) ∧
      (cellsFor bytes ≤ s.txPool.freeCells.length → s.shortResource (cellsFor bytes) = 1) ∧
      (s.txPool.freeDescs ≠ [] → s.shortResource (cellsFor bytes) = 2) := by
  unfold poolShort at short
  unfold shortResource
  by_cases none : s.txPool.freeDescs = []
  · by_cases few : s.txPool.freeCells.length < cellsFor bytes
    · simp only [none, few, List.isEmpty_nil, if_true]
      split <;> simp [Nat.not_le.2 few]
    · simp [none, few]
  · have few := short.resolve_left none
    simp [none]
    omega

theorem agentClaimFailed_refused {bytes : Nat} (short : s.poolShort bytes) :
    agentClaimRefused s (s.agentClaimFailed (cellsFor bytes)) bytes := by
  obtain ⟨codes, cells, descs⟩ := s.shortResource_code short
  refine ⟨?_, ?_, exhaustedDetail 0 (s.shortResource (cellsFor bytes)), ?_, ?_, ?_, ?_⟩
  · unfold agentClaimFailed txClaimFailed
    split
    · rename_i reported
      have same : s.txPool.exhaustionReported = true := by simpa using reported
      simp [← same]
    · simp
  · intro reported
    simp [agentClaimFailed, txClaimFailed, reported]
  · rcases codes with e | e <;> simp [e, exhaustedDetail]
  · intro enough
    simp [cells enough, exhaustedDetail]
  · intro some
    simp [descs some, exhaustedDetail]
  · intro unreported
    have record := ((s.useFree.mapTxPool fun p => { p with exhaustionReported := true }).recordAccepted_offerEvent
      .poolExhausted .none none (exhaustedDetail 0 (s.shortResource (cellsFor bytes))))
    simpa [recordAccepted, agentClaimFailed, txClaimFailed, unreported] using record

/-- A failed claim that sends no NOTICE leaves what a reply needs. -/
theorem agentClaimFailed_quiet (n : Nat) (quiet : s.noNotices ∨ s.txPool.exhaustionReported = true) :
    (s.agentClaimFailed n).agent = s.agent ∧ (s.agentClaimFailed n).counters = s.counters ∧
      (s.agentClaimFailed n).rxPool = s.rxPool ∧ (s.agentClaimFailed n).egress = s.egress := by
  unfold agentClaimFailed txClaimFailed
  split
  · simp
  · rename_i unreported
    have off : s.noNotices := quiet.resolve_right (by simpa using unreported)
    have rest := (s.useFree.mapTxPool fun p => { p with exhaustionReported := true }).offerEvent_quiet .poolExhausted .none
      none (exhaustedDetail 0 (s.shortResource n)) (by simpa [noNotices] using off)
    simpa using rest

theorem agentClaimFailed_onlyChanges (n : Nat) :
    onlyChanges [.rxPool, .egress, .agent, .counters, .txPool, .events, .freeCount] s (s.agentClaimFailed n) := by
  intro b hb
  cases b <;> first | exact absurd (by decide) hb | simp [Block.same]

/-- The relay of a request that the Transmit Pool cannot grant. -/
theorem forward_short {r : Request} {p : Port} (up : s.link.state = .up) (few : s.agent.peers.length < 4)
    (header : 6 ≤ r.payload.length) (short : s.poolShort r.payload.length) :
    s.forward r p = (s.agentClaimFailed (cellsFor r.payload.length)).refuse r .noBuffer := by
  have length (tag : Byte) : (r.relayed tag).length = r.payload.length := by simp [Request.relayed]; omega
  have refused : s.txPool.claimFrame (cellsFor r.payload.length) = none := by
    unfold TxPool.claimFrame
    rcases short with none | lack
    · simp [none]
    · split
      · rfl
      · exact if_neg (by omega)
  simp [forward, up, Config.peerPlaces, Nat.not_le.2 few, sendTrunk, length, refused]

/-- The refusal over the state that the failed claim left. -/
theorem forward_short_replied {r : Request} {p : Port} (station : r.source = .station p) (up : s.link.state = .up)
    (few : s.agent.peers.length < 4) (header : 6 ≤ r.payload.length) (short : s.poolShort r.payload.length) :
    ∃ t, s.withoutHead.forward r p = t ∧ agentClaimRefused s t r.payload.length ∧
        t.agent = { s.withoutHead.agent with noticeLatch := t.agent.noticeLatch } ∧
        (s.noNotices ∨ s.txPool.exhaustionReported = true →
          replied s s.counters s.agent.noticeLatch t r p .noBuffer []) ∧
        onlyChanges [.rxPool, .egress, .agent, .counters, .txPool, .events, .freeCount] s t := by
  obtain ⟨v, hv⟩ : ∃ v, v = s.withoutHead.agentClaimFailed (cellsFor r.payload.length) := ⟨_, rfl⟩
  have agent : v.agent = { s.withoutHead.agent with noticeLatch := v.agent.noticeLatch } := by
    rw [hv]
    exact s.withoutHead.agentClaimFailed_agent _
  have sent : s.withoutHead.forward r p = v.refuse r .noBuffer := by
    rw [hv]
    exact forward_short (s := s.withoutHead) up few header short
  have refused : agentClaimRefused s v r.payload.length := by
    rw [hv]
    exact agentClaimFailed_refused (s := s.withoutHead) short
  have reply := v.refuse_onlyChanges station .noBuffer
  have pool : (v.refuse r .noBuffer).txPool = v.txPool := reply .txPool (by decide)
  have events : (v.refuse r .noBuffer).events = v.events := reply .events (by decide)
  have agent' : (v.refuse r .noBuffer).agent = v.agent := reply .agent (by decide)
  refine ⟨_, sent, ?_, ?_, fun quiet => ?_, ?_⟩
  · simpa [agentClaimRefused, recordAccepted, pool, events] using refused
  · rw [agent']
    exact agent
  · obtain ⟨agent', counters, pool, egress⟩ := s.withoutHead.agentClaimFailed_quiet (cellsFor r.payload.length) quiet
    rw [← hv] at agent' counters pool egress
    have answer := (s.reply_replied v r p s.agent.noticeLatch .noBuffer [] station pool egress agent').1
    rwa [counters] at answer
  · have claim := s.withoutHead.agentClaimFailed_onlyChanges (cellsFor r.payload.length)
    rw [← hv] at claim
    exact onlyChanges_trans (onlyChanges_trans (onlyChanges_mono onlyChanges_withoutHead (by decide)) claim)
      (onlyChanges_mono reply (by decide))

/-! ### The frame relayed (R171) -/

/-- The selection neither reads nor writes the Agent. -/
theorem selectionTrigger_mapAgent (f : Agent → Agent) : (s.mapAgent f).selectionTrigger = s.selectionTrigger.mapAgent f := by
  have mgmt : s.selectionTrigger.counters.mgmt = s.counters.mgmt := by simp
  have agent : s.selectionTrigger.agent = s.agent := by simp
  rw [show s.mapAgent f = s.withMgmt (f s.agent) s.counters.mgmt from rfl, selectionTrigger_withMgmt]
  simp only [withMgmt, mapAgent, ← mgmt, agent]

/-- The state in which a relayed request stands in its Level Queue and in the Pending Peer Table, before the selection that
its admission triggers. -/
def relayJoined (s : State) (r : Request) (p : Port) (n : Nat) (rest : List Nat) : State :=
  ((s.mapTxPool fun k =>
      { k with freeCells := k.freeCells.drop (cellsFor r.payload.length), freeDescs := rest }).joinQueue
    (s.agentFrame .forwardedRequest (r.relayed s.agent.chooseTag) n
      (s.txPool.freeCells.take (cellsFor r.payload.length)))).mapAgent fun a =>
    { a with peers := a.peers ++ [s.newPeer r p], nextLocalTag := s.agent.chooseTag + 1#8 }

/-- The blocks of that state. -/
theorem relayJoined_blocks (s : State) {r : Request} (p : Port) (n : Nat) (rest : List Nat) (header : 6 ≤ r.payload.length) :
    (s.relayJoined r p n rest).agent =
        { s.agent with peers := s.agent.peers ++ [s.newPeer r p], nextLocalTag := s.agent.chooseTag + 1#8 } ∧
      (s.relayJoined r p n rest).txPool =
        { s.txPool with freeCells := s.txPool.freeCells.drop (cellsFor r.payload.length), freeDescs := rest } ∧
      (s.relayJoined r p n rest).sched =
        s.sched.setQueue s.config.active.part.mgmtLevel
          (s.sched.queues.get s.config.active.part.mgmtLevel ++
            [{ number := n, level := s.config.active.part.mgmtLevel, atomic := false, trunkStream := 65535#16
               frameLength := r.payload.length
               cells := fillCells (s.txPool.freeCells.take (cellsFor r.payload.length)) (r.relayed s.agent.chooseTag)
               origin := .forwardedRequest, admissionTime := s.now, ingressPort := none }]) ∧
      (s.relayJoined r p n rest).counters = s.counters.plusLevel s.config.active.part.mgmtLevel .framesAdmitted 1 ∧
      onlyChanges [.agent, .txPool, .sched, .counters] s (s.relayJoined r p n rest) := by
  have length : (r.relayed s.agent.chooseTag).length = r.payload.length := by simp [Request.relayed]; omega
  refine ⟨?_, ?_, ?_, ?_, fun b hb => ?_⟩
  · simp [relayJoined]
  · simp [relayJoined]
  · simp [relayJoined, joinQueue, agentFrame, length, Config.mgmtStream, now]
  · simp [relayJoined, joinQueue, agentFrame]
  · cases b <;> first | exact absurd (by decide) hb | simp [Block.same, relayJoined]

theorem forward_granted {r : Request} {p : Port} {n : Nat} {rest : List Nat} (up : s.link.state = .up)
    (few : s.agent.peers.length < 4) (header : 6 ≤ r.payload.length) (desc : s.txPool.freeDescs = n :: rest)
    (cells : cellsFor r.payload.length ≤ s.txPool.freeCells.length) :
    s.forward r p = (s.relayJoined r p n rest).selectionTrigger := by
  have length : (r.relayed s.agent.chooseTag).length = r.payload.length := by simp [Request.relayed]; omega
  rw [relayJoined, selectionTrigger_mapAgent]
  simp [forward, up, Config.peerPlaces, Nat.not_le.2 few, sendTrunk, TxPool.claimFrame, length, desc, cells, newPeer,
    admission, mapTxPool]

end State
end Sys2Proof.Machine

open Sys2Proof Sys2Proof.Machine in
/-- Settles O49: the row of R171 that applies, from the state that the head request has left. -/
theorem peerRequestIsForwarded : Obligations.PeerRequestIsForwarded := by
  intro s r p running ready head station peer
  have named : r.isPeer = true := by simp [Request.isPeer, peer]
  have executed : exec .requestPeerForwarding s = .next (s.withoutHead.forward r p) := by
    rw [Laws.exec_requestPeerForwarding s running, s.executeIf_head r _ ready head named,
      State.executeHead_peer station peer]
  refine ⟨fun down => ⟨_, executed, ?_⟩, fun up full => ⟨_, executed, ?_⟩, fun up few header short => ?_, ?_⟩
  · rw [show s.withoutHead.forward r p = s.withoutHead.refuse r .linkDown from if_pos down]
    exact State.refuse_replied station .linkDown
  · rw [show s.withoutHead.forward r p = s.withoutHead.refuse r .peerBusy from (if_neg (not_not_intro up)).trans (if_pos full)]
    exact State.refuse_replied station .peerBusy
  · obtain ⟨t, sent, rest⟩ := State.forward_short_replied station up few header short
    exact ⟨t, executed.trans (by rw [sent]), rest⟩
  · intro n rest relayed up few desc header cells relayed_eq
    obtain ⟨k, hk, tag, free, held⟩ := Agent.chooseTag_first few
    obtain ⟨u, hu⟩ : ∃ u, u = s.withoutHead.relayJoined r p n rest := ⟨_, rfl⟩
    obtain ⟨agent, pool, sched, counters, others⟩ := s.withoutHead.relayJoined_blocks p n rest header
    rw [← hu] at agent pool sched counters others
    have joined : onlyChanges [.agent, .txPool, .sched, .counters] s u :=
      onlyChanges_trans (onlyChanges_mono State.onlyChanges_withoutHead (by decide)) others
    have sent : s.withoutHead.forward r p = u.selectionTrigger := by
      rw [hu]
      exact State.forward_granted (s := s.withoutHead) up few header desc cells
    refine ⟨u.selectionTrigger, s.agent.chooseTag, k, executed.trans (by rw [sent]), tag, hk, ?_, held, ?_, ?_, ?_, ?_, ?_,
      u, u.selectionTrigger_follows, by simp, by simp, joined, ?_⟩
    · rwa [tag]
    · exact (show u.selectionTrigger.agent = u.agent by simp).trans agent
    · simp [pool]
    · simp [pool, State.withoutHead]
    · rw [levelCounted, u.selectionTrigger_levelCounter _ _ (by decide) (by decide), counters]
      simp [State.withoutHead]
    · refine onlyChanges_trans (onlyChanges_mono joined (by decide)) fun b hb => ?_
      cases b <;> first | exact absurd (by decide) hb | simp [Block.same]
    · rw [sched, relayed_eq]
      rfl
end

section
/-! FRAME_VALID_FALL of a good user frame: the lookup and the treatment of the frame (R97, R101, R102, R103, R104). -/

namespace Sys2Proof.Machine

/-! ### The lookup (R101) -/

/-- Members of a list whose keys differ are the same when their keys are. -/
theorem eq_of_pairwise_ne {α β : Type} {key : α → β} {l : List α} {x y : α} (distinct : l.Pairwise fun e f => key e ≠ key f)
    (hx : x ∈ l) (hy : y ∈ l) (same : key x = key y) : x = y := by
  induction l with
  | nil => cases hx
  | cons e l ih =>
    obtain ⟨head, tail⟩ := List.pairwise_cons.1 distinct
    rcases List.mem_cons.1 hx with rfl | inX <;> rcases List.mem_cons.1 hy with rfl | inY
    · rfl
    · exact absurd same (head y inY)
    · exact absurd same.symm (head x inX)
    · exact ih tail inX inY

/-- The entry of a key is the one the lookup gives: a bank holds one entry for each (R135). -/
theorem Bank.streamFor_of_mem {b : Bank} {m : MatchPort} {stream : Half} {x : Nat × StreamEntry} (kept : b.kept)
    (mem : x ∈ b.streams) (port : x.2.matchPort = m) (key : x.2.stream = stream) : b.streamFor m stream = some x := by
  obtain ⟨-, -, distinct, -⟩ := kept
  obtain ⟨y, hy⟩ : ∃ y, b.streamFor m stream = some y :=
    Option.isSome_iff_exists.1 (List.find?_isSome.2 ⟨x, mem, by simp [port, key]⟩)
  have found : y.2.matchPort = m ∧ y.2.stream = stream := by simpa using List.find?_some hy
  have same : x = y :=
    eq_of_pairwise_ne (key := fun e : Nat × StreamEntry => (e.2.matchPort, e.2.stream))
      (distinct.imp fun h e => h (Prod.mk.inj e)) mem (List.mem_of_find?_eq_some hy) (by simp [port, key, found])
  rw [hy, same]

theorem Bank.streamFor_eq_none {b : Bank} {m : MatchPort} {stream : Half}
    (none : ∀ x ∈ b.streams, ¬(x.2.matchPort = m ∧ x.2.stream = stream)) : b.streamFor m stream = Option.none :=
  List.find?_eq_none.2 fun x hx => by simpa using none x hx

/-- What an entry found for a frame, or none, gives it. -/
def Bank.classifiedAs (b : Bank) (p : Port) : Option (Nat × StreamEntry) → Classified
  | some x => Classified.ofEntry x
  | none =>
    { hit := none, action := (b.ports.get p).defaultAction, level := (b.ports.get p).defaultLevel, atomic := false
      trunkStream := none }

/-- The port's entry goes before the ANY entry. -/
theorem Bank.classify_of_found {b : Bank} {p : Port} {stream : Half} {x : Nat × StreamEntry} (kept : b.kept)
    (mem : x ∈ b.streams) (key : x.2.stream = stream)
    (match_ : x.2.matchPort = .port p ∨
      x.2.matchPort = .any ∧ ∀ y ∈ b.streams, ¬(y.2.matchPort = .port p ∧ y.2.stream = stream)) :
    b.classify p stream = b.classifiedAs p (some x) := by
  unfold classify
  rcases match_ with port | ⟨any, others⟩
  · rw [streamFor_of_mem kept mem port key]
    rfl
  · rw [streamFor_eq_none others, streamFor_of_mem kept mem any key]
    rfl

theorem Bank.classify_of_none {b : Bank} {p : Port} {stream : Half}
    (none : ∀ x ∈ b.streams, ¬((x.2.matchPort = .port p ∨ x.2.matchPort = .any) ∧ x.2.stream = stream)) :
    b.classify p stream = b.classifiedAs p Option.none := by
  unfold classify
  rw [streamFor_eq_none fun x hx h => none x hx ⟨.inl h.1, h.2⟩, streamFor_eq_none fun x hx h => none x hx ⟨.inr h.1, h.2⟩]
  rfl

/-! ### The fall (R97, R102) -/

/-- A good frame of another stream than the management stream is a user frame. -/
theorem outcome_of_goodFall {s : State} {p : Port} {r : Spr} {n : Nat} (good : goodFall s p r n)
    (user : halfAt r.header 0 ≠ 65535#16) : r.outcome (s.config.active.ports.get p).enabled = .user := by
  obtain ⟨-, -, -, -, enabled, short, some, atMost, bytes, crc⟩ := good
  have declared : r.declaredLength = (halfAt r.header 2).toNat := rfl
  have stream : r.stream ≠ Config.mgmtStream := user
  unfold Spr.outcome
  rw [if_neg (by simp [enabled]), if_neg (by omega), if_neg (by simp [short, declared, bytes]; omega),
    if_neg (by simp [crc]), if_neg stream]

namespace State

variable {s : State}

/-- The state after a fall and the hit of the frame's entry, before its treatment. -/
def fallen (s : State) (p : Port) : Option Nat → State
  | none => ((s.setFrameValid p false).setSpr p (Spr.cleared .idle)).countPort p .framesIn
  | some i => (((s.setFrameValid p false).setSpr p (Spr.cleared .idle)).countPort p .framesIn).countHit i

theorem fallen_onlyChanges (s : State) (p : Port) (hit : Option Nat) :
    onlyChanges [.pins, .sprs, .counters] s (s.fallen p hit) := by
  intro b hb
  cases hit <;> cases b <;> first | exact absurd (by decide) hb | rfl

theorem fallen_sprs (s : State) (p : Port) (hit : Option Nat) : ((s.fallen p hit).sprs.get p).state = .idle := by
  cases hit <;> simp [fallen, setSpr, Spr.cleared]

theorem fallen_pins (s : State) (p : Port) (hit : Option Nat) :
    (s.fallen p hit).pins = { s.pins with frameValid := s.pins.frameValid.set p false } := by
  cases hit <;> rfl

/-- A fall counts its frame and, with an entry, that entry's hit (R97, R102). -/
theorem fallen_counters (s : State) (p : Port) (hit : Option Nat) :
    (s.fallen p hit).counters =
      match hit with
      | none => s.counters.plusPort p .framesIn
      | some i => (s.counters.plusPort p .framesIn).setHit i (s.counters.hit i + 1#32) := by
  cases hit <;> rfl

theorem fallen_at (s : State) (p : Port) (hit : Option Nat) :
    (∀ c, (s.fallen p hit).counters.portAt p c = (s.counters.plusPort p .framesIn).portAt p c) ∧
      ∀ l c, (s.fallen p hit).counters.levelAt l c = s.counters.levelAt l c := by
  cases hit <;> exact ⟨fun _ => rfl, fun _ _ => rfl⟩

theorem exec_frameValidFall_user {p : Port} {r : Spr} {n : Nat} (good : goodFall s p r n)
    (user : halfAt r.header 0 ≠ 65535#16) :
    exec (.frameValidFall p) s =
      .next ((s.fallen p (s.config.active.classify p r.stream).hit).treatFrame p r n (s.config.active.classify p r.stream)) := by
  have outcome := outcome_of_goodFall good user
  obtain ⟨rest, high, rfl, receiving, -⟩ := good
  rw [Laws.exec_frameValidFall s p rest high]
  cases hit : (s.config.active.classify p (s.sprs.get p).stream).hit <;>
    simp only [takeFall, setFrameValid, setSpr, endFrame, userFrame, fallen, mapPins_sprs, mapSprs_config,
      mapPins_config, countPort_frame, receiving, outcome, hit]

/-! ### The treatment (R103, R104) -/

theorem giveBackFrame_pool (r : Spr) (n : Nat) :
    (s.giveBackFrame r n).txPool.freeDescs = s.txPool.freeDescs ++ [n] ∧
      (s.giveBackFrame r n).txPool.freeCells = s.txPool.freeCells ++ r.cells.map (·.number) := by
  simp [giveBackFrame, TxPool.giveBack, TxPool.noteReturn]


/-- A frame given back and counted: dropped by its action, or without room (R103, R104). -/
theorem giveBackFrame_countPort_onlyChanges (p : Port) (r : Spr) (n : Nat) (c : PortCounter) :
    onlyChanges [.txPool, .counters] s ((s.giveBackFrame r n).countPort p c) := by
  intro b hb
  cases b <;> first | exact absurd (by decide) hb | rfl

/-- The same over the state of a fall: the frame is back in the pool and counted once. -/
theorem fallen_givenBack (s : State) (p : Port) (hit : Option Nat) (r : Spr) (n : Nat) {c : PortCounter}
    (other : c ≠ .framesIn) :
    portCounted s (((s.fallen p hit).giveBackFrame r n).countPort p c) p c ∧
      (((s.fallen p hit).giveBackFrame r n).countPort p c).txPool.freeDescs = s.txPool.freeDescs ++ [n] ∧
      (((s.fallen p hit).giveBackFrame r n).countPort p c).txPool.freeCells =
        s.txPool.freeCells ++ r.cells.map (·.number) ∧
      onlyChanges [.pins, .sprs, .txPool, .counters] s (((s.fallen p hit).giveBackFrame r n).countPort p c) := by
  have changes := s.fallen_onlyChanges p hit
  have pool : (s.fallen p hit).txPool = s.txPool := changes .txPool (by decide)
  obtain ⟨descs, cells⟩ := (s.fallen p hit).giveBackFrame_pool r n
  obtain ⟨ports, -⟩ := s.fallen_at p hit
  refine ⟨?_, ?_, ?_, onlyChanges_trans (onlyChanges_mono changes (by decide))
    (onlyChanges_mono (giveBackFrame_countPort_onlyChanges p r n c) (by decide))⟩
  · simp [portCounted, giveBackFrame, ports, other]
  · simp [descs, pool]
  · simp [cells, pool]

theorem treatFrame_drop {p : Port} {r : Spr} {n : Nat} {c : Classified} (drop : c.action = .drop) :
    s.treatFrame p r n c = (s.giveBackFrame r n).countPort p .dropAction := by
  simp [treatFrame, drop]

theorem treatFrame_full {p : Port} {r : Spr} {n : Nat} {c : Classified} (forward : c.action = .forward)
    (full : (s.config.active.levels.get c.level).txQueueLimit < s.levelQueueCells c.level + r.cells.length) :
    s.treatFrame p r n c = (s.giveBackFrame r n).countPort p .queueFull := by
  simp [treatFrame, forward, queueHasRoom, Nat.not_le.2 full]

theorem treatFrame_room {p : Port} {r : Spr} {n : Nat} {c : Classified} (forward : c.action = .forward)
    (room : s.levelQueueCells c.level + r.cells.length ≤ (s.config.active.levels.get c.level).txQueueLimit) :
    s.treatFrame p r n c = (s.joinQueue (c.descriptor p r n s.now)).selectionTrigger := by
  simp [treatFrame, forward, queueHasRoom, room, admission]

/-- What the treatment of a frame leaves, whatever the action. -/
theorem treatFrame_kept (p : Port) (r : Spr) (n : Nat) (c : Classified) :
    (s.treatFrame p r n c).pins = s.pins ∧ (s.treatFrame p r n c).sprs = s.sprs ∧
      (s.treatFrame p r n c).counters.hits = s.counters.hits ∧
      (s.treatFrame p r n c).counters.portAt p .framesIn = s.counters.portAt p .framesIn := by
  unfold treatFrame
  split
  · simp [giveBackFrame]
  · split
    · have port : (s.admission (c.descriptor p r n s.now)).counters.port = s.counters.port := by simp
      simp [CounterBank.portAt_congr port]
    · simp [giveBackFrame]

end State
end Sys2Proof.Machine

open Sys2Proof Sys2Proof.Machine in
/-- Settles O24: the lookup gives what the entry found, or the port, holds, and the action decides the treatment of the frame. -/
theorem fallClassifiesAUserFrame : Obligations.FallClassifiesAUserFrame := by
  intro s p r n found good user entry default
  obtain ⟨c, hc⟩ : ∃ c, c = s.config.active.classifiedAs p found := ⟨_, rfl⟩
  have classified : s.config.active.classify p r.stream = c := by
    rw [hc]
    cases found with
    | none => exact Bank.classify_of_none (default rfl)
    | some x =>
      obtain ⟨mem, key, kept, port⟩ := entry x.1 x.2 rfl
      exact Bank.classify_of_found kept mem key port
  obtain ⟨u, hu⟩ : ∃ u, u = s.fallen p c.hit := ⟨_, rfl⟩
  have executed : exec (.frameValidFall p) s = .next (u.treatFrame p r n c) := by
    rw [State.exec_frameValidFall_user good user, classified, hu]
  have changes : onlyChanges [.pins, .sprs, .counters] s u := hu ▸ s.fallen_onlyChanges p c.hit
  have pool : u.txPool = s.txPool := changes .txPool (by decide)
  have sched : u.sched = s.sched := changes .sched (by decide)
  have config : u.config = s.config := changes .config (by decide)
  have time : u.time = s.time := changes .time (by decide)
  obtain ⟨ports, levels⟩ := s.fallen_at p c.hit
  have counters := s.fallen_counters p c.hit
  rw [← hu] at ports levels counters
  obtain ⟨pins, sprs, hits, framesIn⟩ := State.treatFrame_kept (s := u) p r n c
  refine ⟨u.treatFrame p r n c, c.action, c.level, c.atomic, c.trunkStream.getD r.stream, executed, ?_, ?_, ?_, ?_, ?_, ?_,
    ?_, ?_⟩
  · rw [sprs, hu]
    exact s.fallen_sprs p c.hit
  · rw [pins, hu]
    exact s.fallen_pins p c.hit
  · simp [portCounted, framesIn, ports]
  · rintro i e rfl
    subst hc
    refine ⟨rfl, rfl, rfl, rfl, ?_⟩
    rw [show ∀ b : CounterBank, b.hit i = (sparseGet i b.hits).getD 0#32 from fun _ => rfl, hits, counters]
    exact (CounterBank.hit_setHit _ i i _).trans (if_pos rfl)
  · rintro rfl
    subst hc
    refine ⟨rfl, rfl, rfl, rfl, ?_⟩
    rw [hits, counters]
    rfl
  · intro drop
    rw [State.treatFrame_drop drop, hu]
    exact s.fallen_givenBack p c.hit r n (by decide)
  · intro forward full
    rw [State.treatFrame_full forward (by simpa only [config, State.levelQueueCells, sched] using full), hu]
    exact s.fallen_givenBack p c.hit r n (by decide)
  · intro forward room
    rw [State.treatFrame_room forward (by simpa only [config, State.levelQueueCells, sched] using room)]
    refine ⟨?_, ?_, ?_, u.joinQueue (c.descriptor p r n u.now), State.selectionTrigger_follows _, ?_, ?_⟩
    · rw [levelCounted, State.selectionTrigger_levelCounter _ _ _ (by decide) (by decide)]
      simp [State.joinQueue, levels, Classified.descriptor]
    · simp [pool]
    · refine onlyChanges_trans (onlyChanges_mono changes (by decide)) fun b hb => ?_
      cases b <;> first | exact absurd (by decide) hb | simp [Block.same]
    · refine onlyChanges_trans (onlyChanges_mono changes (by decide)) fun b hb => ?_
      cases b <;> first | exact absurd (by decide) hb | simp [Block.same]
    · simp [State.joinQueue, Classified.descriptor, sched, State.now, time, Scheduler.setQueue, Spr.declaredLength]
end

section
/-! The entry to UP, at a HELLO with heard-you 1 and at a data segment or CONTROL (R4, R5, R44, R74, R75, R76, R85). -/

namespace Sys2Proof.Machine

/-- Reports take no notice of the good run. -/
theorem limitsReported_goodRun {now : Time} {limit : Level → Half} {p : Level → Prop} {k k' : LinkController}
    (h : limitsReported now limit p k k') (run : Nat) :
    limitsReported now limit p { k with goodRun := run } { k' with goodRun := run } := by
  obtain ⟨same, starts, keeps, due⟩ := h
  exact ⟨congrArg (fun j => { j with goodRun := run }) same, starts, keeps, due⟩

/-- An event that does not leave the link DOWN releases no command. -/
theorem releaseIfDown_of_not_down (before : State) {s : State} (h : s.link.state ≠ .down) : releaseIfDown before s = s :=
  if_neg fun down => h down.2

/-- Noting a good segment, in the words of the statements (R77, R78). -/
theorem LinkController.sawGood_noteGood (k : LinkController) (now : Time) : k.sawGood now (k.noteGood now) := by
  have last : k.goodRun + 1 = Config.goodRunLength ↔ k.goodRun = 15 := by simp [Config.goodRunLength]
  simp only [sawGood, noteGood, last]
  rfl

/-- A Link Controller in which a segment may have been noted, as it was before (R78). -/
theorem LinkController.noteGood_unnoted {k : LinkController} {now : Time} (run : k.goodRun ≤ 1) (budget : k.errorBudget = 0)
    (silence : k.silenceDeadline = some (now + 2000#32)) :
    { k with goodRun := if k.goodRun = 0 then 15 else 0 }.noteGood now = k := by
  cases k
  simp only at run budget silence
  subst budget silence
  rcases Nat.le_one_iff_eq_zero_or_eq_one.1 run with rfl | rfl <;> rfl

namespace State

variable {s : State}

/-! ### The comparison of all levels (R85) -/

/-- While the link is UP the reports of the levels of a list are their comparisons. -/
theorem reportLevels_eq (ls : List Level) (up : s.link.state = .up) :
    ls.foldl reportLevel s = s.mapLink (compareMoved s.now s.computedLimit (fun _ => true) ls) := by
  induction ls generalizing s with
  | nil => rfl
  | cons l ls ih =>
    obtain ⟨v, hv⟩ : ∃ v, v = s.mapLink (·.compareLimit s.now (s.computedLimit l) l) := ⟨_, rfl⟩
    have first : s.reportLevel l = v := hv ▸ if_pos up
    have stillUp : v.link.state = .up := by
      rw [hv, mapLink_link, compareLimit_inside]
      exact up
    have limits : v.computedLimit = s.computedLimit := by
      funext m
      rw [hv]
      exact computedLimit_mapLink s _ m (by rw [compareLimit_inside])
    rw [List.foldl_cons, first, ih stillUp, limits, hv]
    rfl

/-! ### The entry (R76) -/

/-- The state that enters UP, its limits not yet compared and LINK_UP not yet recorded. -/
def entering (s : State) : State :=
  (((s.mapLink fun _ => s.upController).mapSched fun k =>
      { k with nextTag := Four.all 0#8, nextSeq := Four.all 0#16 }).mapReasm fun a =>
    { a with expected := some (Four.all 0#16) }).mapTrunkTx (·.removeLatchedHello)

/-- The Link Controller after the entry. -/
def enteredLink (s : State) : LinkController :=
  compareMoved s.now s.entering.computedLimit (fun _ => true) fourIndices s.upController

theorem enterUp_eq (s : State) :
    s.enterUp = (s.entering.mapLink fun _ => s.enteredLink).offerEvent .linkUp .none none s.enteredLink.generation := by
  have reports : fourIndices.foldl reportLevel s.entering = s.entering.mapLink fun _ => s.enteredLink := by
    rw [reportLevels_eq _ (by simp [entering, upController])]
    simp [mapLink, entering, enteredLink, now]
  show (fourIndices.foldl reportLevel s.entering).offerEvent .linkUp .none none
    (fourIndices.foldl reportLevel s.entering).link.generation = _
  rw [reports]
  rfl

/-- The limits an entry compares: e(L) is 0, so they are the free cells (R76, R84). -/
theorem entering_computedLimit (s : State) (l : Level) :
    s.entering.computedLimit l = BitVec.ofNat 16 ((s.config.active.levels.get l).rxAllotment - s.heldCells l) := by
  simp [computedLimit, expectedAt, freeCells, entering, upController, heldCells]

theorem enteredLink_reported (s : State) :
    limitsReported s.now (fun l => BitVec.ofNat 16 ((s.config.active.levels.get l).rxAllotment - s.heldCells l))
      (fun _ => True) s.upController s.enteredLink := by
  have all : (fun l : Level => l ∈ fourIndices ∧ true = true) = fun _ => True := by
    funext l
    simp
    revert l
    decide
  have reported := compareMoved_reported s.now s.entering.computedLimit (fun _ => true) fourIndices s.upController (by decide)
  rw [all] at reported
  rw [show (fun l => _) = s.entering.computedLimit from (funext s.entering_computedLimit).symm]
  exact reported

/-- The state of an entry whose good run is set and whose free values are used up to some number (log 17, log 18). -/
def entered (s : State) (run n : Nat) : State :=
  { s.enterUp with link := { s.enteredLink with goodRun := run }, freeCount := n }

/-- The blocks of that state but for what a NOTICE may touch. -/
theorem entered_blocks (s : State) (run n : Nat) :
    (s.entered run n).link = { s.enteredLink with goodRun := run } ∧
      (s.entered run n).sched = { s.sched with nextTag := Four.all 0#8, nextSeq := Four.all 0#16 } ∧
      (s.entered run n).reasm = { s.reasm with expected := some (Four.all 0#16) } ∧
      (s.entered run n).trunkTx = s.trunkTx.removeLatchedHello ∧ (s.entered run n).reception = s.reception ∧
      (s.entered run n).counters.trunk = s.counters.trunk ∧ (s.entered run n).pins = s.pins ∧
      (s.entered run n).agent.mode = s.agent.mode ∧ (s.entered run n).agent.requests = s.agent.requests := by
  simp [entered, enterUp_eq, entering]

theorem entered_onlyChanges (s : State) (run n : Nat) :
    onlyChanges [.reception, .counters, .link, .sched, .trunkTx, .reasm, .rxPool, .egress, .agent, .events, .freeCount] s
      (s.entered run n) := by
  intro b hb
  cases b <;> first | exact absurd (by decide) hb | simp [Block.same, entered]

theorem entered_quiet (s : State) (run n : Nat) (quiet : s.noNotices) :
    onlyChanges [.reception, .counters, .link, .sched, .trunkTx, .reasm, .events, .freeCount] s (s.entered run n) := by
  obtain ⟨agent, -, pool, egress⟩ := (s.entering.mapLink fun _ => s.enteredLink).offerEvent_quiet .linkUp .none none
    s.enteredLink.generation (by simpa [entering, noNotices] using quiet)
  rw [← enterUp_eq] at agent pool egress
  have agentKept : s.enterUp.agent = s.agent := agent.trans (by simp [entering])
  have poolKept : s.enterUp.rxPool = s.rxPool := pool.trans (by simp [entering])
  have egressKept : s.enterUp.egress = s.egress := egress.trans (by simp [entering])
  intro b hb
  cases b <;> first | exact absurd (by decide) hb | simp [Block.same, entered, agentKept, poolKept, egressKept]

theorem entered_record (s : State) (run n : Nat) :
    recordAccepted s (s.entered run n) .linkUp .none none (s.link.generation + 1#16) := by
  have generation : s.enteredLink.generation = s.link.generation + 1#16 :=
    congrArg LinkController.generation s.enteredLink_reported.1
  have record := (s.entering.mapLink fun _ => s.enteredLink).recordAccepted_offerEvent .linkUp .none none
    s.enteredLink.generation
  rw [← enterUp_eq, generation] at record
  simpa [recordAccepted, entered, entering] using record

/-- The entry in the words of the statements, from a state that a good segment has left with its reception over, its counts
made and the peer's credit known. -/
theorem entersUp_entered {v : State} {credit : Four (Option Half)} (before : onlyChanges [.reception, .counters, .link] s v)
    (closed : v.reception = none) (link : v.link = { s.link with txCredit := credit, heard := true })
    (counted : trunkCounted s v .segmentsReceived) (run n : Nat) : s.entersUp credit run (v.entered run n) := by
  obtain ⟨ulink, usched, ureasm, utx, urec, utrunk, -⟩ := v.entered_blocks run n
  have tx : v.trunkTx = s.trunkTx := before .trunkTx (by decide)
  have config : v.config = s.config := before .config (by decide)
  have time : v.time = s.time := before .time (by decide)
  have sched : v.sched = s.sched := before .sched (by decide)
  have reasm : v.reasm = s.reasm := before .reasm (by decide)
  have pool : v.rxPool = s.rxPool := before .rxPool (by decide)
  have events : v.events = s.events := before .events (by decide)
  have advertised : v.enteredLink.lastAdvertised = s.trunkTx.helloLimits :=
    (congrArg LinkController.lastAdvertised v.enteredLink_reported.1).trans (by simp [upController, tx])
  refine ⟨⟨{ v.upController with goodRun := run }, ?_, ?_⟩, ?_, ?_, ?_, ?_, ?_, ?_, ?_, ?_, ?_, ?_⟩
  · simp [ulink, advertised, upController, link, config, tx, now, time, timeAfter, Config.silenceTime, Config.keepaliveTime]
  · have reported := limitsReported_goodRun v.enteredLink_reported run
    rw [ulink]
    simpa only [now, time, config, heldCells, pool] using reported
  · intro q last l
    simp [ulink, advertised, TrunkTx.helloLimits, last]
  · rw [usched, sched]
  · rw [ureasm, reasm]
  · intro h q latched
    rw [utx, tx]
    simp [TrunkTx.removeLatchedHello, latched]
  · intro none
    rw [utx, tx]
    unfold TrunkTx.removeLatchedHello
    split
    · exact absurd ‹_› (none _ _)
    all_goals rfl
  · rw [urec, closed]
  · unfold trunkCounted at counted ⊢
    rw [CounterBank.trunkAt_congr utrunk, counted]
  · have record := v.entered_record run n
    simpa only [recordAccepted, events, time, link] using record
  · intro quiet
    exact onlyChanges_trans (onlyChanges_mono before (by decide))
      (v.entered_quiet run n (by simpa only [noNotices, config] using quiet))
  · exact onlyChanges_trans (onlyChanges_mono before (by decide)) (v.entered_onlyChanges run n)

/-! ### The segment that brought the link up (R75, R78) -/

/-- A counter bank before a count of the trunk: the count modulo 2^32 can be taken back. -/
def uncountTrunk (b : CounterBank) (c : TrunkCounter) : CounterBank :=
  { b with trunk := raise b.trunk c.position (2 ^ 32 - 1) }

theorem uncountTrunk_plusTrunk (b : CounterBank) (c : TrunkCounter) : (uncountTrunk b c).plusTrunk c = b := by
  have inverse : raise (raise b.trunk c.position (2 ^ 32 - 1)) c.position 1 = b.trunk := by
    simp [raise, BitVec.add_assoc]
  show { b with trunk := raise (raise b.trunk c.position (2 ^ 32 - 1)) c.position 1 } = b
  rw [inverse]

/-- The counts a good segment makes when it is reported (R9, R70). -/
def segmentCounted (s : State) : GoodSegment → State
  | .control _ => (s.countTrunk .segmentsReceived).countTrunk .controlReceived
  | .data _ => s.countTrunk .segmentsReceived
  | .hello _ _ => s.countTrunk .segmentsReceived

theorem goodSegment_up {g : GoodSegment} (up : s.link.state = .up) (noHello : ∀ h q, g ≠ .hello h q) :
    s.goodSegment g = ((s.segmentCounted g).mapLink (·.noteGood s.now)).takeUp g := by
  cases g with
  | data d => simp [goodSegment, up, goodInUp, segmentCounted, now]
  | control q => simp [goodSegment, up, goodInUp, segmentCounted, now]
  | hello h q => exact absurd rfl (noHello h q)

theorem takeUp_state (g : GoodSegment) : (s.takeUp g).link.state = s.link.state := by
  cases g with
  | data d => simp [takeUp]
  | control q =>
    unfold takeUp controlLimits
    dsimp only
    split <;> simp
  | hello h q => rfl

/-- The end of a reception with its segment counted. -/
theorem closed_segmentCounted (s : State) (g : GoodSegment) :
    onlyChanges [.reception, .counters] s ((s.mapReception fun _ => none).segmentCounted g) ∧
      ((s.mapReception fun _ => none).segmentCounted g).reception = none ∧
      trunkCounted s ((s.mapReception fun _ => none).segmentCounted g) .segmentsReceived := by
  refine ⟨fun b hb => ?_, ?_, ?_⟩
  · cases g <;> cases b <;> first | exact absurd (by decide) hb | rfl
  · cases g <;> rfl
  · cases g <;> simp [segmentCounted, trunkCounted]

/-- The counters before a segment's counts. -/
def uncounted (b : CounterBank) : GoodSegment → CounterBank
  | .control _ => uncountTrunk (uncountTrunk b .controlReceived) .segmentsReceived
  | .data _ => uncountTrunk b .segmentsReceived
  | .hello _ _ => uncountTrunk b .segmentsReceived

/-- The state in which a segment ends its reception that leaves, noted and counted, a state given. -/
def receiving (s : State) (r : Reception) (g : GoodSegment) : State :=
  { s with
    reception := some r
    counters := uncounted s.counters g
    link := { s.link with goodRun := if s.link.goodRun = 0 then 15 else 0 } }

theorem receiving_counted {r : Reception} {g : GoodSegment} (closed : s.reception = none) (noHello : ∀ h q, g ≠ .hello h q) :
    ((s.receiving r g).mapReception fun _ => none).segmentCounted g = s.mapLink fun _ => (s.receiving r g).link := by
  cases g with
  | hello h q => exact absurd rfl (noHello h q)
  | data d =>
    show ({ s with
      reception := none
      counters := (uncountTrunk s.counters .segmentsReceived).plusTrunk .segmentsReceived
      link := _ } : State) = _
    rw [uncountTrunk_plusTrunk, ← closed]
    rfl
  | control q =>
    show ({ s with
      reception := none
      counters :=
        ((uncountTrunk (uncountTrunk s.counters .controlReceived) .segmentsReceived).plusTrunk
          .segmentsReceived).plusTrunk .controlReceived
      link := _ } : State) = _
    rw [uncountTrunk_plusTrunk, uncountTrunk_plusTrunk, ← closed]
    rfl

/-- A state that has just entered UP is one that a segment has been noted in already: its error budget is 0 and its good run
at most 1. -/
theorem segmentTaken_takeUp {r : Reception} {g : GoodSegment} (rest : s.atRest) (up : s.link.state = .up)
    (closed : s.reception = none) (run : s.link.goodRun ≤ 1) (budget : s.link.errorBudget = 0)
    (silence : s.link.silenceDeadline = some (s.now + 2000#32)) (short : r.overlength = false)
    (check : checkSegment r.bytes = some g) (noHello : ∀ h q, g ≠ .hello h q) : segmentTaken r g s (s.takeUp g) := by
  have noted : (s.receiving r g).link.noteGood s.now = s.link := LinkController.noteGood_unnoted run budget silence
  have counted := receiving_counted (r := r) closed noHello
  have good : ((s.receiving r g).mapReception fun _ => none).goodSegment g = s.takeUp g := by
    rw [goodSegment_up (s := (s.receiving r g).mapReception fun _ => none) up noHello, counted]
    exact congrArg (fun k => ({ s with link := k } : State).takeUp g) noted
  have taken : (s.receiving r g).lineSymbol .endDelimiter = s.takeUp g := by
    rw [lineSymbol_good (s := s.receiving r g) rfl short check, good]
    exact releaseIfDown_same _ _ (takeUp_state g)
  refine ⟨s.receiving r g, rfl, up, ?_, ?_, ?_, ?_, ?_⟩
  · intro b hb
    cases b <;> first | rfl | exact absurd (by decide) hb
  · exact noted.symm.trans (LinkController.sawGood_noteGood _ _)
  · intro noControl
    cases g with
    | data d => exact (uncountTrunk_plusTrunk s.counters _).symm
    | control q => exact absurd rfl (noControl q)
    | hello h q => exact absurd rfl (noHello h q)
  · rintro q rfl
    rw [show (s.receiving r (.control q)).counters = uncounted s.counters (.control q) from rfl, uncounted,
      uncountTrunk_plusTrunk, uncountTrunk_plusTrunk]
  · rw [Laws.exec_segmentReceptionEnd (s.receiving r g) _ rest, taken]

/-! ### A good segment in HELLO (R74, R75, R76) -/

theorem enteredLink_goodRun (s : State) : s.enteredLink.goodRun = 0 :=
  congrArg LinkController.goodRun s.enteredLink_reported.1

theorem enterUp_link (s : State) : s.enterUp.link = s.enteredLink := by simp [enterUp_eq]

theorem enteredLink_with_goodRun (s : State) : { s.enteredLink with goodRun := 0 } = s.enteredLink := by
  rw [← s.enteredLink_goodRun]

theorem enterUp_entered (s : State) : s.enterUp = s.entered 0 s.freeCount := by
  unfold entered
  rw [enteredLink_with_goodRun, ← enterUp_link, show s.freeCount = s.enterUp.freeCount by simp]

/-- The entry at a data segment or CONTROL, its free values used (log 17, log 18). -/
theorem countEntrySegment_entered (s : State) :
    ∃ run n, run ≤ 1 ∧ s.enterUp.countEntrySegment.useFree = s.entered run n := by
  have link := s.enterUp_link
  have noRun := s.enteredLink_with_goodRun
  simp only [entered]
  generalize s.enterUp = t at link ⊢
  rw [← link] at noRun ⊢
  unfold countEntrySegment
  split
  · exact ⟨1, t.freeCount + 2, Nat.le_refl _, rfl⟩
  · exact ⟨0, t.freeCount + 2, Nat.zero_le _,
      congrArg (fun k => ({ t with link := k } : State).useFree.useFree) noRun.symm⟩

theorem enterUpWith_taken {r : Reception} {g : GoodSegment} (rest : s.atRest) (closed : s.reception = none)
    (short : r.overlength = false) (check : checkSegment r.bytes = some g) (noHello : ∀ h q, g ≠ .hello h q) :
    ∃ run n, run ≤ 1 ∧
      ((∃ v, selectionFollows (s.entered run n) v ∧ segmentTaken r g v (s.enterUpWith g)) ∨
        ∃ v, segmentTaken r g (s.entered run n) v ∧ selectionFollows v (s.enterUpWith g)) ∧
      (s.enterUpWith g).link.state = .up := by
  obtain ⟨run, n, atMost, used⟩ := s.countEntrySegment_entered
  obtain ⟨u, hu⟩ : ∃ u, u = s.entered run n := ⟨_, rfl⟩
  refine ⟨run, n, atMost, ?_⟩
  unfold enterUpWith
  dsimp only
  rw [used, ← hu]
  obtain ⟨ulink, -, -, -, urec, -, upins, umode, urequests⟩ := s.entered_blocks run n
  rw [← hu] at ulink urec upins umode urequests
  have fields := s.enteredLink_reported.1
  have up : u.link.state = .up := by rw [ulink]; exact congrArg LinkController.state fields
  have goodRun : u.link.goodRun = run := by rw [ulink]
  have budget : u.link.errorBudget = 0 := by rw [ulink]; exact congrArg LinkController.errorBudget fields
  have silence : u.link.silenceDeadline = some (u.now + 2000#32) := by
    rw [ulink, show u.now = s.now by simp [hu, entered, now]]
    exact congrArg LinkController.silenceDeadline fields
  have urest : u.atRest := by
    simpa only [atRest, State.running, Agent.headReady, upins, umode, urequests] using rest
  split
  · have trest : u.selectionTrigger.atRest := by simpa [atRest, State.running] using urest
    have tnow : u.selectionTrigger.now = u.now := by simp [now]
    have taken := segmentTaken_takeUp trest (by simpa using up) (by simpa [urec] using closed) (by simpa [goodRun] using atMost)
      (by simpa using budget) (by rw [tnow]; simpa using silence) short check noHello
    refine ⟨.inl ⟨_, selectionTrigger_follows u, taken⟩, ?_⟩
    rw [takeUp_state]
    simpa using up
  · have taken := segmentTaken_takeUp urest up (urec.trans closed) (goodRun ▸ atMost) budget silence short check noHello
    refine ⟨.inr ⟨_, taken, selectionTrigger_follows _⟩, ?_⟩
    simpa [takeUp_state] using up

theorem goodSegment_hello_up {g : GoodSegment} (hello : s.link.state = .hello) (heard : s.link.heard = true)
    (noHello : ∀ h q, g ≠ .hello h q) : s.goodSegment g = (s.segmentCounted g).enterUpWith g := by
  cases g with
  | data d => simp [goodSegment, hello, goodInHello, segmentCounted, heard]
  | control q => simp [goodSegment, hello, goodInHello, segmentCounted, heard]
  | hello h q => exact absurd rfl (noHello h q)

theorem goodSegment_answered {limits : Four Half} (hello : s.link.state = .hello) :
    s.goodSegment (.hello true limits) =
      ((s.segmentCounted (.hello true limits)).storeHello limits).enterUp.selectionTrigger := by
  simp [goodSegment, hello, goodInHello, segmentCounted, enterUpAtHello]

end State
end Sys2Proof.Machine

open Sys2Proof Sys2Proof.Machine in
/-- Settles O12: the entry, then the selection and the segment that brought it, in either order. -/
theorem answeredHelloBringsTheLinkUp : Obligations.AnsweredHelloBringsTheLinkUp := by
  refine ⟨fun s r g rest receiving short check hello heard noHello => ?_, fun s r limits rest receiving short check hello => ?_⟩
  · obtain ⟨v, hv⟩ : ∃ v, v = (s.mapReception fun _ => none).segmentCounted g := ⟨_, rfl⟩
    obtain ⟨changes, closed, counted⟩ := s.closed_segmentCounted g
    rw [← hv] at changes closed counted
    have link : v.link = s.link := changes .link (by decide)
    have vrest : v.atRest := by
      rw [State.atRest, State.running, show v.pins = s.pins from changes .pins (by decide),
        show v.agent = s.agent from changes .agent (by decide)]
      exact rest
    obtain ⟨run, n, atMost, order, up⟩ := State.enterUpWith_taken vrest closed short check noHello
    have executed : exec (.segmentReceptionEnd .endDelimiter) s = .next (v.enterUpWith g) := by
      rw [Laws.exec_segmentReceptionEnd s _ rest, lineSymbol_good receiving short check,
        State.goodSegment_hello_up (s := s.mapReception fun _ => none) hello heard noHello, ← hv]
      rw [releaseIfDown_of_not_down _ (by rw [up]; decide)]
    exact ⟨_, _, run, executed, atMost,
      State.entersUp_entered (onlyChanges_mono changes (by decide)) closed (by rw [link, ← heard]) counted run n, order⟩
  · obtain ⟨v, hv⟩ : ∃ v, v = ((s.mapReception fun _ => none).segmentCounted (.hello true limits)).storeHello limits :=
      ⟨_, rfl⟩
    obtain ⟨changes, closed, counted⟩ := s.closed_segmentCounted (.hello true limits)
    obtain ⟨u, hu⟩ : ∃ u, u = v.enterUp := ⟨_, rfl⟩
    have up : u.link.state = .up := by rw [hu, State.enterUp_link]; exact congrArg LinkController.state v.enteredLink_reported.1
    have executed : exec (.segmentReceptionEnd .endDelimiter) s = .next u.selectionTrigger := by
      rw [Laws.exec_segmentReceptionEnd s _ rest, lineSymbol_good receiving short check,
        State.goodSegment_answered (s := s.mapReception fun _ => none) hello, ← hv, ← hu]
      rw [releaseIfDown_of_not_down _ (by simp [up])]
    have enters : s.entersUp (Four.make fun l => some (limits.get l)) 0 u := by
      rw [hu, State.enterUp_entered]
      refine State.entersUp_entered ?_ ?_ ?_ ?_ 0 _
      · refine onlyChanges_trans (onlyChanges_mono changes (by decide)) fun b hb => ?_
        rw [hv]
        cases b <;> first | exact absurd (by decide) hb | rfl
      · rw [hv]
        exact closed
      · rw [hv]
        rfl
      · rw [hv]
        exact counted
    have free : u.freeCount = s.freeCount := by simp [hu, hv, State.segmentCounted]
    obtain ⟨⟨k, hk, reported⟩, -, usched, ureasm, -, -, urec, ucount, record, -, others⟩ := id enters
    have fields := reported.1
    subst hk
    refine ⟨u.selectionTrigger, executed, ?_, ?_, ?_, ?_, ?_, ?_, ?_, ?_, ?_, ?_, ?_, ?_, ?_, ?_, ?_, ?_, u, enters,
      u.selectionTrigger_follows⟩
    · simp [urec]
    · simp [up]
    · simpa using congrArg LinkController.generation fields
    · simpa using congrArg LinkController.heard fields
    · intro l
      have := congrArg (fun k => k.txCredit.get l) fields
      simpa using this
    · intro l
      have := congrArg (fun k => k.allotment.get l) fields
      simpa using this
    · simpa using congrArg LinkController.errorBudget fields
    · simpa using congrArg LinkController.goodRun fields
    · simpa using congrArg LinkController.silenceDeadline fields
    · simpa using congrArg LinkController.keepaliveDeadline fields
    · simpa using congrArg LinkController.helloDeadline fields
    · simp [ureasm]
    · simp [ureasm]
    · simpa [trunkCounted] using ucount
    · simpa [recordAccepted] using record
    · intro b hb
      have kept := others b
      cases b <;> first | exact absurd (by decide) hb | simpa [Block.same] using kept (by decide) | simp [Block.same, free]

end

section
/-! HELLO segments in HELLO and in UP, and the two timers of the handshake (R71, R73, R74, R76, R77, R78, R79). -/

namespace Sys2Proof.Machine

/-! ### A HELLO placed in the slots (R11, R76) -/

namespace TrunkTx

variable {t : TrunkTx} (g : Segment)

/-- Nothing replaces a latched segment (R11). -/
theorem place_of_full (full : t.latch ≠ none) : t.place g = t := by
  unfold place
  split
  · rfl
  · rename_i empty
    exact absurd empty full

/-- A segment placed on an idle line starts at once (R11). -/
theorem place_of_idle (empty : t.latch = none) (idle : t.inFlight = none) : t.place g = t.start g := by
  simp [place, empty, idle]

/-- A segment placed behind one in flight waits in the latch (R11). -/
theorem place_of_busy (empty : t.latch = none) (busy : t.inFlight ≠ none) : t.place g = { t with latch := some g } := by
  obtain ⟨f, flying⟩ := Option.ne_none_iff_exists'.1 busy
  simp [place, empty, flying]

end TrunkTx

namespace State

variable {s : State}

/-! ### HELLO segments on arrival (R74) -/

/-- A HELLO with heard-you 0 on a HELLO link is counted and stored (R9, R74). -/
theorem goodSegment_unanswered {limits : Four Half} (hello : s.link.state = .hello) :
    s.goodSegment (.hello false limits) = (s.segmentCounted (.hello false limits)).storeHello limits := by
  simp [goodSegment, hello, goodInHello, segmentCounted]

/-- A HELLO on an UP link is counted and noted; one with heard-you 0 then takes the link down (R74, R77, R78). -/
theorem goodSegment_up_hello {heardYou : Bool} {limits : Four Half} (up : s.link.state = .up) :
    s.goodSegment (.hello heardYou limits) =
      if heardYou then (s.segmentCounted (.hello heardYou limits)).mapLink (·.noteGood s.now)
      else ((s.segmentCounted (.hello heardYou limits)).mapLink (·.noteGood s.now)).linkDown .peerRestart := by
  cases heardYou <;> simp [goodSegment, up, goodInUp, segmentCounted, now]

/-! ### The handshake timers (R71, R73) -/

theorem holdOffDue_of_passed {d : Time} (down : s.link.state = .down) (runs : s.link.holdOff = some d)
    (elapsed : (s.now - d).toNat < 2 ^ 31) : s.holdOffDue = true := by
  simp only [holdOffDue, Bool.and_eq_true, decide_eq_true_eq, deadlineReached_iff]
  exact ⟨down, d, runs, elapsed⟩

theorem helloDue_of_passed {d : Time} (hello : s.link.state = .hello) (runs : s.link.helloDeadline = some d)
    (elapsed : (s.now - d).toNat < 2 ^ 31) : s.helloDue = true := by
  simp only [helloDue, Bool.and_eq_true, decide_eq_true_eq, deadlineReached_iff]
  exact ⟨hello, d, runs, elapsed⟩

/-- Placing a HELLO reaches the Trunk Transmitter alone: the segment carries heard-you and each level's free cells under its
Active allotment as they stand (R73). -/
theorem placeHello_eq (s : State) :
    s.placeHello = s.mapTrunkTx (·.place (.hello s.link.heard (Four.make fun l =>
      BitVec.ofNat 16 ((s.config.active.levels.get l).rxAllotment - s.heldCells l)))) := rfl

end State
end Sys2Proof.Machine

open Sys2Proof Sys2Proof.Machine in
/-- Settles O11: the HELLO is counted and stored, and nothing takes the link down. -/
theorem helloStoresThePeersLimits : Obligations.HelloStoresThePeersLimits := by
  intro s r limits rest receiving short check hello
  refine ⟨((s.mapReception fun _ => none).countTrunk .segmentsReceived).storeHello limits, ?_, rfl, rfl, rfl, fun b hb => ?_⟩
  · rw [Laws.exec_segmentReceptionEnd s _ rest, lineSymbol_good receiving short check,
      State.goodSegment_unanswered (s := s.mapReception fun _ => none) hello,
      releaseIfDown_same _ _ (by rfl)]
    rfl
  · cases b <;> first | exact absurd (by decide) hb | rfl

open Sys2Proof Sys2Proof.Machine in
/-- Settles O13: both HELLOs are noted as good segments first, and the DOWN event of the second starts from there. -/
theorem helloWhileUpTellsOfAPeerRestart : Obligations.HelloWhileUpTellsOfAPeerRestart := by
  intro s r heardYou limits rest receiving short check up
  obtain ⟨u, hu⟩ : ∃ u, u = ((s.mapReception fun _ => none).countTrunk .segmentsReceived).mapLink (·.noteGood s.now) :=
    ⟨_, rfl⟩
  have changes : onlyChanges [.reception, .counters, .link] s u := by
    intro b hb
    subst hu
    cases b <;> first | exact absurd (by decide) hb | rfl
  have noted : s.link.sawGood s.now u.link := by
    rw [hu]
    exact s.link.sawGood_noteGood s.now
  have stillUp : u.link.state = .up := by
    rw [hu]
    exact up
  have executed : exec (.segmentReceptionEnd .endDelimiter) s =
      .next (releaseIfDown s (if heardYou then u else u.linkDown .peerRestart)) := by
    rw [Laws.exec_segmentReceptionEnd s _ rest, lineSymbol_good receiving short check,
      State.goodSegment_up_hello (s := s.mapReception fun _ => none) up, hu]
    rfl
  refine ⟨fun heard => ⟨u, ?_, ?_, noted, ?_, changes⟩,
    fun unheard noCommand => ⟨u.linkDown .peerRestart, u.link, ?_, ?_, noted, ?_⟩⟩
  · rw [executed, if_pos heard, releaseIfDown_same _ _ (stillUp.trans up.symm)]
  · rw [hu]
    rfl
  · rw [hu]
    rfl
  · have agent : u.agent = s.agent := changes .agent (by decide)
    obtain ⟨-, -, -, -, mode, -⟩ := u.linkDown_spec .peerRestart (by simp [stillUp])
    rw [executed, if_neg (by simp [unheard]), releaseIfDown_none _ _ fun c n => by rw [mode, agent]; exact noCommand c n]
  · simp [hu]
  · exact linkDown_from .peerRestart (onlyChanges_mono changes (by decide)) (by simp [hu]) (by simp [stillUp])

open Sys2Proof Sys2Proof.Machine in
/-- Settles O29: each timer places a HELLO, and what becomes of it is what the slots hold. -/
theorem handshakeTimersSendHellos : Obligations.HandshakeTimersSendHellos := by
  refine ⟨fun s d rest down runs elapsed idle empty => ?_, fun s d rest hello runs elapsed => ?_⟩
  · refine ⟨s.enterHello, ?_, ?_, ?_, ?_, ?_, fun b hb => ?_⟩
    · rw [Laws.exec_holdOffExpiry s rest, if_pos (State.holdOffDue_of_passed down runs elapsed)]
    · simp [State.enterHello, State.placeHello_eq, timeAfter, Config.helloInterval]
    · simp [State.enterHello, State.placeHello_eq, TrunkTx.place_of_idle, idle, empty, State.heldCells]
    · simp [State.enterHello, State.placeHello_eq, TrunkTx.place_of_idle, idle, empty]
    · simp [State.enterHello, State.placeHello_eq, TrunkTx.place_of_idle, idle, empty, State.heldCells, TrunkTx.start]
    · cases b <;> first | exact absurd (by decide) hb | rfl
  · have slots : s.nextHello.trunkTx = s.trunkTx.place (.hello s.link.heard (Four.make fun l =>
        BitVec.ofNat 16 ((s.config.active.levels.get l).rxAllotment - s.heldCells l))) := rfl
    refine ⟨s.nextHello, ?_, ?_, fun full => ?_, fun limits carried empty => ⟨fun idle => ?_, fun busy => ?_⟩,
      fun b hb => ?_⟩
    · rw [Laws.exec_helloDeadlineExpiry s rest, if_pos (State.helloDue_of_passed hello runs elapsed)]
    · simp [State.nextHello, State.placeHello_eq, runs, timeAfter, Config.helloInterval]
    · rw [slots, TrunkTx.place_of_full _ full]
    · rw [slots, ← carried, TrunkTx.place_of_idle _ empty idle]
      exact ⟨rfl, empty, rfl⟩
    · rw [slots, ← carried, TrunkTx.place_of_busy _ empty busy]
      exact ⟨rfl, rfl, rfl⟩
    · cases b <;> first | exact absurd (by decide) hb | rfl
end

section
/-! LINK CONTROL whose reply the reserve cannot grant acts at its execution (R72, R79, R112, R159, R167, R168). -/

namespace Sys2Proof.Machine.State

variable {s : State}

/-- The reply to the head request of a station port, lost: only the count of dropped replies moves (R159). -/
theorem reply_lost {r : Request} {p : Port} (station : r.source = .station p) (status : Status) (results : List Byte)
    (lost : ¬s.reserveGrants (5 + results.length)) : s.withoutHead.reply r status results = (s.replyLost, none) := by
  have refused := s.withoutHead.placeReserve_of_not_grants p r.replyStream (replyBytes r.tag r.command status results)
    (by rw [replyBytes_length]; exact lost)
  simp only [reply, station, localReply, refused]
  rfl

/-- A LINK CONTROL at the head of the queue is answered OK and deferred until its reply has left (R167, R168). -/
theorem executeHead_linkControl {r : Request} {p : Port} {b : Byte} {action : LinkAction} (h : s.hasAtHead r p 10#8)
    (arg : r.args.head? = some b) (code : linkActionOf b = some action) :
    s.executeHead r = s.withoutHead.deferCommand r (some (.linkControl action)) := by
  obtain ⟨-, -, -, station, isLocal, command⟩ := h
  obtain ⟨rest, args⟩ : ∃ rest, r.args = b :: rest := List.head?_eq_some_iff.1 arg
  rw [show s.executeHead r = s.withoutHead.executeRequest r from rfl]
  simp [executeRequest, station, isLocal, executeLocal, requiredArgs, command, args, carryOut, byteAt, code]

/-- Without a reply to wait for it acts at once (R168). -/
theorem executeHead_linkControl_replyLost {r : Request} {p : Port} {b : Byte} {action : LinkAction}
    (h : s.hasAtHead r p 10#8) (lost : ¬s.reserveGrants 5) (arg : r.args.head? = some b)
    (code : linkActionOf b = some action) : s.executeHead r = s.replyLost.linkAction action := by
  obtain ⟨-, ready, -, station, -, -⟩ := id h
  have stillReady : (s.replyLost.mapAgent fun a => { a with mode := .ready }) = s.replyLost := by
    simp [mapAgent, replyLost, withoutHead, ← ready]
  simp only [executeHead_linkControl h arg code, deferCommand, reply_lost station .ok [] lost, deferOrApply, applyCommand,
    stillReady]

/-- A command that names the LINK CONTROL at the head of the queue takes its action (R72, log 5). -/
theorem executeIf_linkControl_controlled {r : Request} {p : Port} {b : Byte} {action : LinkAction} {n : Nat}
    (h : s.hasAtHead r p 10#8) (lost : ¬s.reserveGrants 5) (arg : r.args.head? = some b)
    (code : linkActionOf b = some action) (number : b.toNat = n) :
    linkControlled s.replyLost (s.executeIf (Request.isLocalWith 10 n)) action := by
  obtain ⟨-, ready, head, -, isLocal, command⟩ := id h
  have named : Request.isLocalWith 10 n r = true := by
    simp [Request.isLocalWith, Request.isLocal, isLocal, command, arg, number]
  rw [s.executeIf_head r _ ready head named, executeHead_linkControl_replyLost h lost arg code]
  exact linkAction_controlled _ _

end Sys2Proof.Machine.State

open Sys2Proof Sys2Proof.Machine in
/-- Settles O47: the three commands name the three codes of the action byte. -/
theorem linkControlActsOnTheLink : Obligations.LinkControlActsOnTheLink := by
  intro s r p h lost
  obtain ⟨running, -⟩ := id h
  refine ⟨fun arg => ⟨_, Laws.exec_linkControlDrop s running, ?_⟩,
    fun arg => ⟨_, Laws.exec_linkControlHold s running, ?_⟩, fun arg => ⟨_, Laws.exec_linkControlRelease s running, ?_⟩⟩
  · exact State.executeIf_linkControl_controlled h lost arg rfl rfl
  · exact State.executeIf_linkControl_controlled h lost arg rfl rfl
  · exact State.executeIf_linkControl_controlled h lost arg rfl rfl
end

section
/-! The state after reset (00_scope.md, Start-up in brief; R90, R120, R154, R177, R188). -/

namespace Sys2Proof.Machine

/-- The default bank holds empty tables and values in their ranges (R136 to R140, R154). -/
theorem Bank.default_kept : Bank.default.kept := by
  refine ⟨rfl, by simp [Bank.default], .nil, rfl, by simp [Bank.default], .nil, fun l => ?_, fun p => ?_, by decide,
    by decide⟩
  · simp [Bank.default, LevelEntry.default, LevelEntry.inRange]
  · simp [Bank.default, PortSettings.default]

/-- The default allotments are 252 cells each (R138, R145). -/
theorem ConfigStore.cold_kept : ConfigStore.cold.kept :=
  ⟨Bank.default_kept, Bank.default_kept, by decide, by decide⟩

/-- All of the Receive Pool is free at a cold start (R120). -/
theorem RxPool.cold_kept : RxPool.cold.kept := by
  refine ⟨rfl, ?_, ?_, ?_, ?_⟩ <;> simp [RxPool.cold, RxPool.cellsInUse, RxPool.inUse]

namespace State

/-- The RESTART record stands alone in the Event Queue (R179, R188). -/
theorem reset_events_kept : State.reset.events.kept := by
  refine ⟨by decide, by decide, by decide, fun i hi => ?_⟩
  obtain rfl : i = 0 := Nat.lt_one_iff.1 hi
  rfl

/-- No frame has come in, and all of the Transmit Pool is free (R120). -/
theorem reset_txPoolKept : State.reset.txPoolKept := by
  have noFrames : State.reset.txFrames = [] := rfl
  have noDescriptors : (fourIndices.flatMap fun p => (State.reset.sprs.get p).descriptorHeld) = [] := rfl
  have noCells : (fourIndices.flatMap fun p => (State.reset.sprs.get p).cellsHeld) = [] := rfl
  rw [txPoolKept, noFrames, noDescriptors, noCells]
  constructor <;> simp [State.reset, State.cold, TxPool.cold]

end State
end Sys2Proof.Machine

open Sys2Proof Sys2Proof.Machine in
/-- Settles O58, block by block. -/
theorem resetMeetsTheInvariants : Obligations.ResetMeetsTheInvariants := by
  refine ⟨State.reset_events_kept, ConfigStore.cold_kept, ?_, ?_, ?_, ?_, ?_, RxPool.cold_kept, State.reset_txPoolKept⟩
  · exact fun _ => ⟨rfl, rfl, trivial, trivial, rfl⟩
  · simp [LinkController.recordsFit, State.reset, LinkController.cold]
  · simp [State.lineFits, State.reset, LinkController.cold]
  · exact State.stacksKept_of_same (s := State.cold Pins.reset true .powerUp 0 []) rfl rfl (State.cold_keepsStacks _ _ _ _ _)
  · simp [Agent.kept, State.reset, State.cold, Agent.cold]
end

section
/-! TRANSMISSION_COMPLETION: the completed segment's reports, then the start of the latched segment (R11, R17, R34, R76, R86,
R87, R107). -/

namespace Sys2Proof.Machine

/-! ### A return to the Transmit Pool (R107, R110) -/

/-- The flag after a return, by the lists that the return leaves (R107). -/
theorem flagAfterReturn_and (cells descs : List Nat) (before : Bool) :
    flagAfterReturn cells descs before
      (before && !(decide (Config.clearCells ≤ cells.length) && decide (Config.clearDescs ≤ descs.length))) := by
  refine ⟨fun enoughCells enoughDescs => ?_, fun short => ?_⟩
  · simp [Config.clearCells, Config.clearDescs, enoughCells, enoughDescs]
  · rcases short with short | short
    · simp [Config.clearCells, Nat.not_le.2 short]
    · simp [Config.clearDescs, Nat.not_le.2 short]

/-- A frame given back joins the free lists at their tails, cells before descriptor (R107, R110). -/
theorem TxPool.giveBackFrame_returned (p : TxPool) (d : TxDescriptor) :
    (p.giveBackFrame d).freeCells = p.freeCells ++ d.cells.map (·.number) ∧
      (p.giveBackFrame d).freeDescs = p.freeDescs ++ [d.number] ∧
      flagAfterReturn (p.giveBackFrame d).freeCells (p.giveBackFrame d).freeDescs p.exhaustionReported
        (p.giveBackFrame d).exhaustionReported :=
  ⟨rfl, rfl, flagAfterReturn_and _ _ _⟩

/-! ### The in-flight slot at a selection (R11) -/

/-- A segment placed behind one in flight leaves it there (R11). -/
theorem TrunkTx.place_inFlight_of_busy {t : TrunkTx} (g : Segment) (busy : t.inFlight ≠ none) :
    (t.place g).inFlight = t.inFlight := by
  by_cases empty : t.latch = none
  · rw [place_of_busy g empty busy]
  · rw [place_of_full g empty]

namespace State

variable {s : State}

theorem select_inFlight_of_busy (busy : s.trunkTx.inFlight ≠ none) : s.select.trunkTx.inFlight = s.trunkTx.inFlight := by
  unfold select selectControl selectFirst selectWhole selectStart selectNext placeSegment
  dsimp only
  repeat' split
  all_goals first | rfl | (simp only [mapTrunkTx_trunkTx]; exact TrunkTx.place_inFlight_of_busy _ busy)

/-- A selection trigger while a segment is in flight leaves it there (R11). -/
theorem selectionTrigger_inFlight_of_busy (busy : s.trunkTx.inFlight ≠ none) :
    s.selectionTrigger.trunkTx.inFlight = s.trunkTx.inFlight := by
  obtain ⟨waits, one, -⟩ := s.selectionTrigger_follows
  by_cases free : s.link.state = .up ∧ s.trunkTx.latch = none
  · rw [one free.1 free.2 busy, select_inFlight_of_busy busy]
  · rw [waits (Classical.not_and_iff_not_or_not.1 free)]

/-! ### The completed segment (R11, R34, R86, R87) -/

/-- The blocks that the reports of a completed segment can touch. -/
theorem segmentCompleted_onlyChanges (s : State) (g : Segment) :
    onlyChanges [.trunkTx, .link, .counters, .txPool] s (s.segmentCompleted g) := by
  intro b hb
  cases b <;> first | exact absurd (by decide) hb | simp [Block.same]

/-- The in-flight slot is empty, and the keepalive deadline is set afresh while UP (R11, R86). -/
theorem segmentCompleted_line (s : State) (g : Segment) :
    (s.segmentCompleted g).trunkTx = { s.trunkTx with inFlight := none } ∧
      (s.segmentCompleted g).link =
        (if s.link.state = .up then { s.link with keepaliveDeadline := some (s.now + 250#32) } else s.link) := by
  unfold segmentCompleted
  dsimp only
  cases g <;> by_cases up : s.link.state = .up <;>
    simp [up, timeAfter, Config.keepaliveTime, now]

theorem segmentCompleted_control (s : State) (q : Four Half) :
    (s.segmentCompleted (.control q)).counters = (s.counters.plusTrunk .segmentsSent).plusTrunk .controlSent ∧
      (s.segmentCompleted (.control q)).txPool = s.txPool := by
  unfold segmentCompleted
  dsimp only
  split <;> simp

theorem segmentCompleted_hello (s : State) (h : Bool) (q : Four Half) :
    (s.segmentCompleted (.hello h q)).counters = s.counters.plusTrunk .segmentsSent ∧
      (s.segmentCompleted (.hello h q)).txPool = s.txPool := by
  unfold segmentCompleted
  dsimp only
  split <;> simp

/-- A START or MIDDLE is counted at its level; its frame stays open (R34). -/
theorem segmentCompleted_data_open (s : State) {d : DataSegment} (stays : d.kind.closes = false) :
    (s.segmentCompleted (.data d)).counters =
        (s.counters.plusTrunk .segmentsSent).plusLevel d.level .segmentsSent 1 ∧
      (s.segmentCompleted (.data d)).txPool = s.txPool := by
  unfold segmentCompleted dataCompleted
  dsimp only
  rw [if_neg (by simp [stays])]
  split <;> simp

/-- An END or WHOLE is counted, and its frame is counted as sent and given back to the pool (R34). -/
theorem segmentCompleted_data_closed (s : State) {d : DataSegment} (ends : d.kind.closes = true) :
    (s.segmentCompleted (.data d)).counters =
        ((s.counters.plusTrunk .segmentsSent).plusLevel d.level .segmentsSent 1).plusLevel d.level .framesSent 1 ∧
      (s.segmentCompleted (.data d)).txPool = s.txPool.giveBackFrame d.frame := by
  unfold segmentCompleted dataCompleted
  dsimp only
  rw [if_pos ends]
  split <;> simp [freeTx]

end State

theorem DataKind.closes_eq_false {k : DataKind} (h : k = .start ∨ k = .middle) : k.closes = false := by
  rcases h with rfl | rfl <;> rfl

theorem DataKind.closes_eq_true {k : DataKind} (h : k = .end_ ∨ k = .whole) : k.closes = true := by
  rcases h with rfl | rfl <;> rfl

namespace State

variable {s : State}

/-- Every completed segment is counted (R11). -/
theorem segmentCompleted_counted (s : State) (g : Segment) : trunkCounted s (s.segmentCompleted g) .segmentsSent := by
  unfold trunkCounted
  cases g with
  | control q => simp [s.segmentCompleted_control q]
  | hello h q => simp [s.segmentCompleted_hello h q]
  | data d =>
    cases closes : d.kind.closes with
    | false => simp [s.segmentCompleted_data_open closes]
    | true => simp [s.segmentCompleted_data_closed closes]

/-! ### The latched segment (R11, R17, R76) -/

/-- The latched segment is in flight and the latch empty, before the selection that its start makes. -/
def latchMoved (s : State) : State :=
  match s.trunkTx.latch with
  | none => s
  | some g => s.mapTrunkTx fun t => { t.start g with latch := none }

theorem latchMoved_onlyChanges (s : State) : onlyChanges [.trunkTx] s s.latchMoved := by
  unfold latchMoved
  split
  · exact onlyChanges_refl _ _
  · intro b hb
    cases b <;> first | exact absurd (by decide) hb | rfl

/-- With no segment in flight the latched one, if any, takes the slot (R11). -/
theorem latchMoved_slots (idle : s.trunkTx.inFlight = none) :
    s.latchMoved.trunkTx.inFlight = s.trunkTx.latch ∧ s.latchMoved.trunkTx.latch = none := by
  unfold latchMoved
  split
  · rename_i empty
    exact ⟨idle.trans empty.symm, empty⟩
  · rename_i g full
    exact ⟨full.symm, rfl⟩

/-- A HELLO that starts gives the limits kept for the entry to UP, and any other segment leaves them (R76, log 25). -/
theorem latchMoved_lastHello (s : State) :
    (∀ h q, s.trunkTx.latch = some (.hello h q) → s.latchMoved.trunkTx.lastHello = some q) ∧
      ((∀ h q, s.trunkTx.latch ≠ some (.hello h q)) → s.latchMoved.trunkTx.lastHello = s.trunkTx.lastHello) := by
  refine ⟨fun h q waits => ?_, fun noHello => ?_⟩
  · simp [latchMoved, waits, TrunkTx.start]
  · unfold latchMoved
    split
    · rfl
    · rename_i g full
      cases g with
      | data d => rfl
      | control q => rfl
      | hello h q => exact absurd full (noHello h q)

/-- The start of the latched segment, if there is one, is a selection trigger (R11, R17). -/
theorem startLatched_eq (s : State) :
    s.startLatched = if s.trunkTx.latch = none then s.latchMoved else s.latchMoved.selectionTrigger := by
  unfold startLatched latchMoved
  split <;> simp [*]

/-- A completion with a segment in flight: where no command awaits it, its reports and the start of the latched one. -/
theorem transmissionDone_eq {g : Segment} (flying : s.trunkTx.inFlight = some g)
    (unawaited : ∀ c a, s.agent.mode = .deferring c a → g.replyDone ≠ some a) :
    s.transmissionDone = (s.segmentCompleted g).startLatched := by
  have mode : (s.segmentCompleted g).agent.mode = s.agent.mode := by simp
  unfold transmissionDone
  rw [flying]
  dsimp only
  split
  · rfl
  · rename_i a done
    unfold replyLeft
    split
    · rfl
    · rename_i c awaited deferring
      rw [if_neg fun same => unawaited c awaited (mode ▸ deferring) (by rw [done, same])]

/-- A selection trigger reaches the Scheduler, the slots, the Link Controller and the counters. -/
theorem selectionTrigger_onlyChanges (s : State) :
    onlyChanges [.sched, .trunkTx, .link, .counters] s s.selectionTrigger := by
  intro b hb
  cases b <;> first | exact absurd (by decide) hb | simp [Block.same]

theorem startLatched_onlyChanges (s : State) : onlyChanges [.sched, .trunkTx, .link, .counters] s s.startLatched := by
  have moved : onlyChanges [.sched, .trunkTx, .link, .counters] s s.latchMoved :=
    onlyChanges_mono s.latchMoved_onlyChanges (by decide)
  rw [startLatched_eq]
  split
  · exact moved
  · exact onlyChanges_trans moved (selectionTrigger_onlyChanges _)

/-- With no segment in flight the latched one, if any, is in flight next, whatever is selected behind it (R11). -/
theorem startLatched_inFlight (idle : s.trunkTx.inFlight = none) : s.startLatched.trunkTx.inFlight = s.trunkTx.latch := by
  obtain ⟨moved, -⟩ := s.latchMoved_slots idle
  rw [startLatched_eq]
  split
  · exact moved
  · rename_i full
    rw [selectionTrigger_inFlight_of_busy (by rw [moved]; exact full), moved]

/-- The start of the latched segment selects as a trigger does in the state in which that segment is in flight (R17). -/
theorem startLatched_follows (s : State) :
    (s.trunkTx.latch = none → s.startLatched = s.latchMoved) ∧
      (s.trunkTx.latch ≠ none → selectionFollows s.latchMoved s.startLatched) := by
  rw [startLatched_eq]
  exact ⟨fun empty => if_pos empty, fun full => by rw [if_neg full]; exact selectionTrigger_follows _⟩

/-- Of the Link Controller the start of the latched segment leaves the keepalive deadline, and while the link is not UP
everything (R17, R86). -/
theorem startLatched_link (s : State) :
    s.startLatched.link.keepaliveDeadline = s.link.keepaliveDeadline ∧
      (s.link.state ≠ .up → s.startLatched.link = s.link) := by
  have moved : s.latchMoved.link = s.link := s.latchMoved_onlyChanges .link (by decide)
  rw [startLatched_eq]
  split
  · exact ⟨congrArg LinkController.keepaliveDeadline moved, fun _ => moved⟩
  · refine ⟨by simp [moved], fun notUp => ?_⟩
    rw [selectionTrigger_none _ (.inl (by rw [moved]; exact notUp)), moved]

/-- Of the counters it moves preemptions and WHOLE insertions alone (R23, R24). -/
theorem startLatched_counters (s : State) :
    s.startLatched.counters.trunk = s.counters.trunk ∧
      ∀ l c, c ≠ .preemptions → c ≠ .wholeInsertions → s.startLatched.counters.levelAt l c = s.counters.levelAt l c := by
  have moved : s.latchMoved.counters = s.counters := s.latchMoved_onlyChanges .counters (by decide)
  rw [startLatched_eq]
  split
  · exact ⟨by rw [moved], fun _ _ _ _ => by rw [moved]⟩
  · exact ⟨by simp [moved], fun l c h1 h2 => by rw [selectionTrigger_levelCounter _ l c h1 h2, moved]⟩

/-- It leaves the Transmit Pool. -/
theorem startLatched_txPool (s : State) : s.startLatched.txPool = s.txPool := s.startLatched_onlyChanges .txPool (by decide)

/-! ### What a completion counts and gives back, by the kind of segment (R34, R87, R107) -/

theorem completed_counted (s : State) (g : Segment) :
    trunkCounted s (s.segmentCompleted g).startLatched .segmentsSent := by
  obtain ⟨trunk, -⟩ := (s.segmentCompleted g).startLatched_counters
  exact (CounterBank.trunkAt_congr trunk _).trans (s.segmentCompleted_counted g)

theorem completed_control (s : State) (q : Four Half) :
    trunkCounted s (s.segmentCompleted (.control q)).startLatched .controlSent ∧
      (s.segmentCompleted (.control q)).startLatched.txPool = s.txPool := by
  obtain ⟨trunk, -⟩ := (s.segmentCompleted (.control q)).startLatched_counters
  obtain ⟨counters, pool⟩ := s.segmentCompleted_control q
  exact ⟨by simp [trunkCounted, CounterBank.trunkAt_congr trunk, counters], by rw [startLatched_txPool, pool]⟩

theorem completed_hello (s : State) (h : Bool) (q : Four Half) :
    (s.segmentCompleted (.hello h q)).startLatched.txPool = s.txPool ∧
      (s.segmentCompleted (.hello h q)).startLatched.counters.trunk = (s.counters.plusTrunk .segmentsSent).trunk := by
  obtain ⟨trunk, -⟩ := (s.segmentCompleted (.hello h q)).startLatched_counters
  obtain ⟨counters, pool⟩ := s.segmentCompleted_hello h q
  exact ⟨by rw [startLatched_txPool, pool], by rw [trunk, counters]⟩

theorem completed_data (s : State) (d : DataSegment) :
    levelCounted s (s.segmentCompleted (.data d)).startLatched d.level .segmentsSent 1 := by
  obtain ⟨-, level⟩ := (s.segmentCompleted (.data d)).startLatched_counters
  unfold levelCounted
  rw [level _ _ (by decide) (by decide)]
  cases closes : d.kind.closes with
  | false => simp [s.segmentCompleted_data_open closes]
  | true => simp [s.segmentCompleted_data_closed closes]

theorem completed_data_open (s : State) {d : DataSegment} (stays : d.kind.closes = false) :
    (s.segmentCompleted (.data d)).startLatched.txPool = s.txPool := by
  obtain ⟨-, pool⟩ := s.segmentCompleted_data_open stays
  rw [startLatched_txPool, pool]

theorem completed_data_closed (s : State) {d : DataSegment} (ends : d.kind.closes = true) :
    levelCounted s (s.segmentCompleted (.data d)).startLatched d.level .framesSent 1 ∧
      (s.segmentCompleted (.data d)).startLatched.txPool = s.txPool.giveBackFrame d.frame := by
  obtain ⟨-, level⟩ := (s.segmentCompleted (.data d)).startLatched_counters
  obtain ⟨counters, pool⟩ := s.segmentCompleted_data_closed ends
  refine ⟨?_, by rw [startLatched_txPool, pool]⟩
  rw [levelCounted, level _ _ (by decide) (by decide), counters]
  simp

/-! ### What a completion does to the Link Controller (R86) -/

theorem completed_link (s : State) (g : Segment) :
    (s.link.state = .up →
        (s.segmentCompleted g).startLatched.link.keepaliveDeadline = some (s.now + 250#32)) ∧
      (s.link.state ≠ .up → (s.segmentCompleted g).startLatched.link = s.link) := by
  obtain ⟨-, link⟩ := s.segmentCompleted_line g
  obtain ⟨keepalive, notUpLink⟩ := (s.segmentCompleted g).startLatched_link
  refine ⟨fun up => ?_, fun notUp => ?_⟩
  · rw [keepalive, link, if_pos up]
  · rw [if_neg notUp] at link
    rw [notUpLink (by rw [link]; exact notUp), link]

end State
end Sys2Proof.Machine

open Sys2Proof Sys2Proof.Machine in
/-- Settles O26: `segmentCompleted` is the completed segment's part and `startLatched` the latched one's; the state between
them, with the latched segment moved, is the one the next selection is made from. -/
theorem completionFreesTheFrameAndStartsTheLatch : Obligations.CompletionFreesTheFrameAndStartsTheLatch := by
  refine ⟨fun s rest idle => ?_, fun s g rest flying unawaited => ?_⟩
  · rw [Laws.exec_transmissionCompletion s rest, State.transmissionDone, idle]
  · obtain ⟨line, link⟩ := s.segmentCompleted_line g
    have changes := s.segmentCompleted_onlyChanges g
    obtain ⟨keepalive, notUpLink⟩ := s.completed_link g
    have executed : exec .transmissionCompletion s = .next (s.segmentCompleted g).startLatched := by
      rw [Laws.exec_transmissionCompletion s rest, State.transmissionDone_eq flying unawaited]
    have idle : (s.segmentCompleted g).trunkTx.inFlight = none := by rw [line]
    have latch : (s.segmentCompleted g).trunkTx.latch = s.trunkTx.latch := by rw [line]
    have lastHello : (s.segmentCompleted g).trunkTx.lastHello = s.trunkTx.lastHello := by rw [line]
    obtain ⟨slot, emptied⟩ := State.latchMoved_slots idle
    obtain ⟨gives, leaves⟩ := (s.segmentCompleted g).latchMoved_lastHello
    obtain ⟨stays, selects⟩ := (s.segmentCompleted g).startLatched_follows
    rw [latch] at slot gives leaves stays selects
    refine ⟨_, executed, (State.startLatched_inFlight idle).trans latch, s.completed_counted g, keepalive, notUpLink,
      fun q control => ?_, fun h q hello => ?_, fun d data => ?_, ?_, (s.segmentCompleted g).latchMoved, ?_, slot, emptied,
      gives, fun noHello => (leaves noHello).trans lastHello, ?_, stays, selects⟩
    · rw [control]
      exact s.completed_control q
    · rw [hello]
      exact s.completed_hello h q
    · rw [data]
      refine ⟨s.completed_data d, fun opens => s.completed_data_open (DataKind.closes_eq_false opens), fun closes => ?_⟩
      obtain ⟨sent, freed⟩ := s.completed_data_closed (DataKind.closes_eq_true closes)
      rw [freed]
      exact ⟨sent, s.txPool.giveBackFrame_returned d.frame⟩
    · exact onlyChanges_trans (onlyChanges_mono changes (by decide))
        (onlyChanges_mono (State.startLatched_onlyChanges _) (by decide))
    · exact onlyChanges_trans changes (onlyChanges_mono (State.latchMoved_onlyChanges _) (by decide))
    · exact ((State.latchMoved_onlyChanges _) .link (by decide)).trans link
end

section
/-! EGRESS_FRAME_START and EGRESS_COMPLETION (R85, R115, R116, R117, R119, R127, R128, R129). -/

namespace Sys2Proof.Machine

/-! ### Start (R127, R128) -/

theorem EgressPort.startHead_of_empty {e : EgressPort} (empty : e.queue = []) : e.startHead = e := by
  simp [startHead, empty]

theorem EgressPort.startHead_of_queued {e : EgressPort} (queued : e.queue ≠ []) :
    e.startHead = { e with state := .sending } := by
  simp [startHead, queued]

/-- A frame whose chain holds as many bytes as it is long goes on the line whole (R128). -/
theorem RxDescriptor.frameBytes_whole {f : RxDescriptor} (whole : (chainBytes f.chain).length = f.length) :
    f.frameBytes = withCrc (halfBytes f.stream ++ halfBytes (BitVec.ofNat 16 f.length) ++ chainBytes f.chain) := by
  rw [frameBytes, ← whole, List.take_length]

/-- The frame at the head of a SENDING transmitter's queue is on its line (R127, R128). -/
theorem State.stationTransmitFrame_sending {s : State} {p : Port} {n : Nat} {f : RxDescriptor} (runs : s.running)
    (sending : (s.egress.get p).state = .sending) (head : (s.egress.get p).queue.head? = some n)
    (used : s.rxPool.desc n = some f) : s.stationTransmitFrame p = some f.frameBytes := by
  have held : s.pins.resetHeld = false := runs
  simp [State.stationTransmitFrame, State.transmitFrameValid, held, sending, head, used]

/-! ### The Receive Pool at a completion (R112, R114, R117, R119) -/

/-- A value put where a canonical table holds one that counts alike leaves every count (R114). -/
theorem map_sparseInsert_alike {α β : Type} {f : Nat × α → β} {n : Nat} {d w : α} {m : List (Nat × α)}
    (rising : sparseRising m = true) (held : sparseGet n m = some w) (alike : f (n, d) = f (n, w)) :
    (sparseInsert n d m).map f = m.map f := by
  induction m with
  | nil => cases held
  | cons e m ih =>
    obtain ⟨i, v⟩ := e
    obtain ⟨above, rest⟩ := (sparseRising_cons i v m).1 rising
    rw [sparseGet_cons] at held
    unfold sparseInsert
    split at held
    · rename_i same
      subst same
      injection held with same
      subst same
      simp [alike]
    · rename_i other
      have later : i < n := above _ ((sparseGet_eq_some n w m rest).1 held)
      rw [if_neg (by omega), if_neg (Ne.symm other), List.map_cons, List.map_cons, ih rest held]

namespace RxPool

variable {p : RxPool} {n : Nat} {f : RxDescriptor}

/-- A reference count moves no held-cell count (R114). -/
theorem heldCells_putDesc_refCount (rising : sparseRising p.descs = true) (used : p.desc n = some f) (k : Nat) (l : Level) :
    (p.putDesc n { f with refCount := k }).heldCells l = p.heldCells l :=
  congrArg List.sum (map_sparseInsert_alike rising used rfl)

/-- A level frame released: its cells, then its descriptor, join the level part's lists at their tails (R117, R119). -/
theorem release_level {l : Level} (used : p.desc n = some f) (cls : f.cls = .level l) :
    (p.release n).levelPart.freeCells = p.levelPart.freeCells ++ f.chain.map (·.number) ∧
      (p.release n).levelPart.freeDescs = p.levelPart.freeDescs ++ [n] ∧
      flagAfterReturn (p.release n).levelPart.freeCells (p.release n).levelPart.freeDescs p.exhaustionReported
        (p.release n).exhaustionReported ∧
      (p.release n).reserve = p.reserve := by
  rw [release, used]
  simp only [cls]
  exact ⟨rfl, rfl, flagAfterReturn_and _ _ _, rfl⟩

/-- A reserve frame released goes back to the reserve; the flag and the level part stay (R117, R119). -/
theorem release_reserve (used : p.desc n = some f) (cls : f.cls = .reserve) :
    (p.release n).reserve.freeCells = p.reserve.freeCells ++ f.chain.map (·.number) ∧
      (p.release n).reserve.freeDescs = p.reserve.freeDescs ++ [n] ∧
      (p.release n).exhaustionReported = p.exhaustionReported ∧ (p.release n).levelPart = p.levelPart := by
  simp [release, used, cls, RxPart.giveBack, RxPart.giveBackDesc]

end RxPool

namespace State

variable {s : State} {p : Port} {n : Nat} {f : RxDescriptor}

/-- The last reference to a frame releases it (R116, R129). -/
theorem lowerRef_last (used : s.rxPool.desc n = some f) (last : f.refCount ≤ 1) :
    (s.lowerRef n).rxPool = s.rxPool.release n := by
  simp [lowerRef, used, last, releaseRx]

/-- A frame with other references stays in use with one less (R116, R129). -/
theorem lowerRef_shared (used : s.rxPool.desc n = some f) (shared : 2 ≤ f.refCount) :
    (s.lowerRef n).rxPool = s.rxPool.putDesc n { f with refCount := f.refCount - 1 } := by
  simp [lowerRef, used, Nat.not_le.2 shared, RxPool.mapDesc]

/-! ### Completion (R85, R129) -/

/-- The frame counted and off its queue, before its reference count falls. -/
theorem frameOut_blocks (s : State) (p : Port) (n : Nat) :
    (s.frameOut p n).counters = s.counters.plusPort p .framesOut ∧
      (s.frameOut p n).egress = s.egress.set p (s.egress.get p).complete ∧
      onlyChanges [.counters, .egress, .rxPool] s (s.frameOut p n) := by
  refine ⟨by simp [frameOut], by simp [frameOut], fun b hb => ?_⟩
  cases b <;> first | exact absurd (by decide) hb | simp [Block.same]

/-- The Receive Pool after the completion of a frame's last reference (R117, R129). -/
theorem frameOut_last (p : Port) (used : s.rxPool.desc n = some f) (last : f.refCount ≤ 1) :
    (s.frameOut p n).rxPool = s.rxPool.release n := by
  rw [frameOut, lowerRef_last (f := f) (by simpa using used) last]
  simp

/-- The Receive Pool after the completion of a frame that other ports hold too (R116, R129). -/
theorem frameOut_shared (p : Port) (used : s.rxPool.desc n = some f) (shared : 2 ≤ f.refCount) :
    (s.frameOut p n).rxPool = s.rxPool.putDesc n { f with refCount := f.refCount - 1 } := by
  rw [frameOut, lowerRef_shared (f := f) (by simpa using used) shared]
  simp

/-- An event that moves no limit reports nothing (R85, R115). -/
theorem creditReport_unmoved {before : State} (unmoved : ∀ l, ¬before.limitMoves s l) : creditReport before s = s := by
  have moved (l : Level) : limitMoved before s l = false :=
    Bool.eq_false_iff.2 fun h => unmoved l ((limitMoved_iff before s l).1 h)
  have silent : reportMoved before s = s := by simp [reportMoved, fourIndices, moved]
  rw [creditReport, silent, triggerIfDue, if_neg]
  rintro ⟨was, is⟩
  exact Bool.false_ne_true (was.symm.trans is)

/-- The credit reports reach the Link Controller, and the selection they may call for the transmit side (R85). -/
theorem creditReport_onlyChanges (before s : State) :
    onlyChanges [.counters, .link, .sched, .trunkTx] s (creditReport before s) := by
  intro b hb
  cases b <;> first | exact absurd (by decide) hb | simp [Block.same]

theorem reportMoved_onlyChanges (before s : State) : onlyChanges [.link] s (reportMoved before s) := by
  intro b hb
  cases b <;> first | exact absurd (by decide) hb | simp [Block.same]

/-- The completion of a frame that no command awaits (R129). -/
theorem egressCompleted_eq {rest : List Nat} (sending : (s.egress.get p).state = .sending)
    (queue : (s.egress.get p).queue = n :: rest) (unawaited : ∀ c, s.agent.mode ≠ .deferring c (.station p n)) :
    s.egressCompleted p = creditReport s (s.frameOut p n) := by
  have mode : (creditReport s (s.frameOut p n)).agent.mode = s.agent.mode := by simp
  unfold egressCompleted
  rw [sending, queue]
  dsimp only
  unfold egressDone replyLeft
  split
  · rfl
  · rename_i c awaited deferring
    rw [if_neg fun same => unawaited c (by rw [← mode, deferring, same])]

/-- While a frame has other references no limit moves at its completion (R85, R115). -/
theorem frameOut_shared_unmoved (rising : sparseRising s.rxPool.descs = true) (used : s.rxPool.desc n = some f)
    (shared : 2 ≤ f.refCount) (l : Level) : ¬s.limitMoves (s.frameOut p n) l := by
  rintro (moved | moved)
  · exact moved (by simp [expectedAt])
  · exact moved (by rw [heldCells, heldCells, frameOut_shared p used shared, RxPool.heldCells_putDesc_refCount rising used])

end State
end Sys2Proof.Machine

open Sys2Proof Sys2Proof.Machine in
/-- Settles O38: the start is `startHead`; the completion is `frameOut` and its credit reports, which a frame with other
references does not make. -/
theorem egressSendsAndReleasesTheHead : Obligations.EgressSendsAndReleasesTheHead := by
  refine ⟨fun s p rest => ⟨fun empty => ?_, fun queued => ?_⟩,
    fun s p n queue f rest sending head used rising unawaited => ?_⟩
  · have unstarted : (s.mapEgress fun q => q.set p (q.get p).startHead) = s := by
      simp [State.mapEgress, EgressPort.startHead_of_empty empty]
    rw [Laws.exec_egressFrameStart s p rest, unstarted]
  · obtain ⟨t, ht⟩ : ∃ t, t = s.mapEgress fun q => q.set p { q.get p with state := .sending } := ⟨_, rfl⟩
    have port : t.egress.get p = { s.egress.get p with state := .sending } := by simp [ht]
    have changes : onlyChanges [.egress] s t := by
      intro b hb
      subst ht
      cases b <;> first | exact absurd (by decide) hb | rfl
    refine ⟨t, ?_, by rw [port], by rw [port], fun q other => ?_, changes, fun n f bytes first used whole sent => ?_⟩
    · rw [Laws.exec_egressFrameStart s p rest, ht]
      simp only [State.mapEgress, EgressPort.startHead_of_queued queued]
    · simp [ht, Four.get_set_other _ _ _ _ other]
    · have pool : t.rxPool = s.rxPool := changes .rxPool (by decide)
      have pins : t.pins = s.pins := changes .pins (by decide)
      rw [State.stationTransmitFrame_sending (f := f) (by rw [State.running, pins]; exact rest.1) (by rw [port])
        (by rw [port]; exact first) (by rw [pool]; exact used), RxDescriptor.frameBytes_whole whole, sent]
      rfl
  · obtain ⟨v, hv⟩ : ∃ v, v = s.frameOut p n := ⟨_, rfl⟩
    obtain ⟨t, ht⟩ : ∃ t, t = creditReport s v := ⟨_, rfl⟩
    have executed : exec (.egressCompletion p) s = .next t := by
      rw [Laws.exec_egressCompletion s p rest, State.egressCompleted_eq sending head unawaited, ht, hv]
    obtain ⟨counters, egress, changes⟩ := s.frameOut_blocks p n
    rw [← hv] at counters egress changes
    have reports : onlyChanges [.counters, .link, .sched, .trunkTx] v t := ht ▸ State.creditReport_onlyChanges s v
    have pool : t.rxPool = v.rxPool := reports .rxPool (by decide)
    have ports : t.egress = s.egress.set p (s.egress.get p).complete := (reports .egress (by decide)).trans egress
    have link : v.link = s.link := changes .link (by decide)
    have time : v.time = s.time := changes .time (by decide)
    refine ⟨t, executed, ?_, ?_, ?_, fun q other => ?_, fun shared => ?_, fun last => ?_, ?_, reportMoved s v, ?_, ?_, ?_⟩
    · simp [portCounted, ht, counters]
    · simp [ports, EgressPort.complete, head]
    · simp [ports, EgressPort.complete]
    · rw [ports, Four.get_set_other _ _ _ _ other]
    · have unmoved : t = v := by
        rw [ht, hv]
        exact State.creditReport_unmoved (State.frameOut_shared_unmoved rising used shared)
      rw [unmoved]
      exact ⟨hv ▸ State.frameOut_shared p used shared, changes⟩
    · rw [pool, hv, State.frameOut_last p used last]
      refine ⟨by simp [RxPool.desc_release], fun m other => by simp [RxPool.desc_release, other],
        fun l cls => RxPool.release_level used cls, fun cls => RxPool.release_reserve used cls⟩
    · exact onlyChanges_trans (onlyChanges_mono changes (by decide)) (onlyChanges_mono reports (by decide))
    · simp [pool]
    · have taken := State.creditReport_taken s v (by rw [link]) (by rw [State.now, State.now, time])
      rwa [link, ← ht] at taken
    · exact onlyChanges_trans (onlyChanges_mono changes (by decide))
        (onlyChanges_mono (State.reportMoved_onlyChanges s v) (by decide))
end

section
/-! FRAME_VALID_RISE: a Station Port Receiver claims its descriptor, and a claim on the Transmit Pool that fails (R94, R106). -/

namespace Sys2Proof.Machine

/-- Two parts of an event, each within its own blocks, stay within a list that holds both. -/
theorem onlyChanges_chain {first second changed : List Block} {s t u : State} (h1 : onlyChanges first s t)
    (h2 : onlyChanges second t u) (hc : first ++ second ⊆ changed) : onlyChanges changed s u :=
  onlyChanges_trans (onlyChanges_mono h1 fun _ hb => hc (List.mem_append_left _ hb))
    (onlyChanges_mono h2 fun _ hb => hc (List.mem_append_right _ hb))

/-- A record depends on the queue it finds, on the Time Base and on the queue it leaves. -/
theorem recordAccepted_congr {s s' t t' : State} {k : EventKind} {subject : Subject} {stream : Option Half} {detail : Half}
    (before : s'.events = s.events) (time : s'.time = s.time) (after : t'.events = t.events)
    (h : recordAccepted s' t' k subject stream detail) : recordAccepted s t k subject stream detail := by
  simpa only [recordAccepted, before, time, after] using h

namespace State

variable {s : State}

/-! ### A receiver's record -/

@[simp] theorem setSpr_sprs_self (p : Port) (r : Spr) : (s.setSpr p r).sprs.get p = r := by simp [setSpr]

@[simp] theorem setSpr_sprs_other {p q : Port} (r : Spr) (other : q ≠ p) : (s.setSpr p r).sprs.get q = s.sprs.get q := by
  simp [setSpr, Four.get_set_other _ _ _ _ other]

theorem setSpr_onlyChanges (p : Port) (r : Spr) : onlyChanges [.sprs] s (s.setSpr p r) := by
  intro b hb
  cases b <;> first | exact absurd (by decide) hb | rfl

theorem setFrameValid_onlyChanges (p : Port) (high : Bool) : onlyChanges [.pins] s (s.setFrameValid p high) := by
  intro b hb
  cases b <;> first | exact absurd (by decide) hb | rfl

theorem mapTxPool_onlyChanges (f : TxPool → TxPool) : onlyChanges [.txPool] s (s.mapTxPool f) := by
  intro b hb
  cases b <;> first | exact absurd (by decide) hb | rfl

/-! ### A failed claim on the Transmit Pool (R106) -/

theorem txClaimFailed_onlyChanges (b : Subject) (n : Nat) :
    onlyChanges [.txPool, .rxPool, .egress, .agent, .counters, .events] s (s.txClaimFailed b n) := by
  intro c hc
  cases c <;> first | exact absurd (by decide) hc | simp [Block.same]

/-- A failure that has been reported is not reported again. -/
theorem txClaimFailed_reported (b : Subject) (n : Nat) (reported : s.txPool.exhaustionReported = true) :
    s.txClaimFailed b n = s := by
  simp [txClaimFailed, reported]

theorem txClaimFailed_txPool (b : Subject) (n : Nat) :
    (s.txClaimFailed b n).txPool = { s.txPool with exhaustionReported := true } := by
  cases flag : s.txPool.exhaustionReported with
  | true => rw [txClaimFailed_reported b n flag, ← flag]
  | false => simp [txClaimFailed, flag]

/-- The first failure since the flag was clear is recorded. -/
theorem txClaimFailed_recorded (b : Subject) (n : Nat) (unreported : s.txPool.exhaustionReported = false) :
    recordAccepted s (s.txClaimFailed b n) .poolExhausted b none (exhaustedDetail 0 n) := by
  have record := (s.mapTxPool fun p => { p with exhaustionReported := true }).recordAccepted_offerEvent .poolExhausted b none
    (exhaustedDetail 0 n)
  simpa [recordAccepted, txClaimFailed, unreported] using record

/-! ### The rise (R94) -/

theorem takeRise_begins {p : Port} (waits : (s.sprs.get p).state = .idle ∨ (s.sprs.get p).state = .skipping) :
    s.takeRise p = s.beginFrame p := by
  rcases waits with idle | skipping
  · simp [takeRise, idle]
  · simp [takeRise, skipping]

theorem beginFrame_granted (p : Port) {n : Nat} {rest : List Nat} (free : s.txPool.freeDescs = n :: rest) :
    s.beginFrame p =
      (s.mapTxPool fun _ => { s.txPool with freeDescs := rest }).setSpr p (Spr.cleared (.receiving n)) := by
  simp [beginFrame, TxPool.claimDesc, free]

theorem beginFrame_short (p : Port) (none : s.txPool.freeDescs = []) :
    s.beginFrame p = (s.setSpr p (Spr.cleared (.dropping .noDescriptor))).txClaimFailed (.port p) 1 := by
  simp [beginFrame, TxPool.claimDesc, none]

theorem beginFrame_otherPort {p q : Port} (other : q ≠ p) : (s.beginFrame p).sprs.get q = s.sprs.get q := by
  unfold beginFrame
  split <;> simp [other]

theorem beginFrame_pins (p : Port) : (s.beginFrame p).pins = s.pins := by
  unfold beginFrame
  split <;> simp [setSpr]

end State
end Sys2Proof.Machine

open Sys2Proof Sys2Proof.Machine in
/-- Settles O21, by whether the claim of a descriptor is granted. -/
theorem riseClaimsADescriptor : Obligations.RiseClaimsADescriptor := by
  intro s p rest low waits
  obtain ⟨v, hv⟩ : ∃ v, v = s.setFrameValid p true := ⟨_, rfl⟩
  have rises : onlyChanges [.pins] s v := hv ▸ State.setFrameValid_onlyChanges p true
  have sprs : v.sprs = s.sprs := rises .sprs (by decide)
  have pool : v.txPool = s.txPool := rises .txPool (by decide)
  have executed : exec (.frameValidRise p) s = .next (v.beginFrame p) := by
    rw [Laws.exec_frameValidRise s p rest low, ← hv, State.takeRise_begins (by rwa [sprs])]
  refine ⟨v.beginFrame p, executed, ?_, fun q other => ?_, fun n descs free => ?_, fun none => ?_⟩
  · rw [State.beginFrame_pins, hv]
    rfl
  · rw [State.beginFrame_otherPort other, sprs]
  · rw [State.beginFrame_granted p (by rwa [pool]), pool]
    refine ⟨State.setSpr_sprs_self p _, rfl, ?_⟩
    exact onlyChanges_chain rises
      (onlyChanges_chain (State.mapTxPool_onlyChanges _) (State.setSpr_onlyChanges p _) (List.Subset.refl _)) (by decide)
  · obtain ⟨w, hw⟩ : ∃ w, w = v.setSpr p (Spr.cleared (.dropping .noDescriptor)) := ⟨_, rfl⟩
    have drops : onlyChanges [.pins, .sprs] s w :=
      onlyChanges_chain rises (hw ▸ State.setSpr_onlyChanges p _) (by decide)
    have pool' : w.txPool = s.txPool := drops .txPool (by decide)
    rw [State.beginFrame_short p (by rwa [pool]), ← hw]
    refine ⟨?_, ?_, fun reported => ?_, fun unreported => ?_, ?_⟩
    · simp [hw, Spr.cleared]
    · rw [State.txClaimFailed_txPool, pool']
    · rwa [State.txClaimFailed_reported _ _ (by rwa [pool'])]
    · exact recordAccepted_congr (drops .events (by decide)) (drops .time (by decide)) rfl
        (State.txClaimFailed_recorded _ _ (by rwa [pool']))
    · exact onlyChanges_chain drops (State.txClaimFailed_onlyChanges _ _) (by decide)
end

section
/-! STATION_BYTE_RECEIVED: the header, the trailing pair, the cells of the chain, the overlength mark, and the frame that
finds no cell (R95, R96). -/

namespace Sys2Proof.Machine

/-! ### The last cell of a chain (R95, R110) -/

theorem lastHasRoom_append (chain : List PoolCell) (last : PoolCell) :
    lastHasRoom (chain ++ [last]) = decide (last.bytes.length < 64) := by
  rw [lastHasRoom, List.getLast?_concat]
  rfl

/-- A chain that is empty or ends in a full cell has no room. -/
theorem lastHasRoom_full {cells : List PoolCell}
    (full : ∀ chain last, cells = chain ++ [last] → 64 ≤ last.bytes.length) : lastHasRoom cells = false := by
  rcases List.eq_nil_or_concat cells with empty | ⟨chain, last, ends⟩
  · rw [empty]
    rfl
  · rw [List.concat_eq_append] at ends
    rw [ends, lastHasRoom_append, decide_eq_false (Nat.not_lt.2 (full chain last ends))]

/-- A byte is written to the last cell, whatever stands before it. -/
theorem appendByte_append (b : Byte) (chain : List PoolCell) (last : PoolCell) :
    appendByte b (chain ++ [last]) = chain ++ [{ last with bytes := last.bytes ++ [b] }] := by
  induction chain with
  | nil => rfl
  | cons c chain ih =>
    rw [List.cons_append, appendByte, ih]
    · rfl
    · simp

/-! ### The trailing pair (R95) -/

theorem enterPair_filling {pair : List Byte} (b : Byte) (short : pair.length < 2) : enterPair pair b = (none, pair ++ [b]) := by
  match pair, short with
  | [], _ => rfl
  | [_], _ => rfl

/-- While the pair fills, the byte leaves the CRC state as it is. -/
theorem Spr.pairByte_filling {r : Spr} (b : Byte) (short : r.trailing.length < 2) :
    r.pairByte b = { r with trailing := r.trailing ++ [b], byteCount := r.byteCount + 1 } := by
  simp [pairByte, enterPair_filling b short]

/-- The byte that leaves a full pair is fed to the CRC state. -/
theorem Spr.pairByte_full {r : Spr} {old kept : Byte} (b : Byte) (pair : r.trailing = [old, kept]) :
    r.pairByte b = { r with trailing := [kept, b], crc := crcByte r.crc old, byteCount := r.byteCount + 1 } := by
  simp [pairByte, pair, enterPair]

namespace State

variable {s : State} {p : Port} {r : Spr} {n : Nat}

/-! ### Bytes 5 to 1542 (R95, R96) -/

theorem payloadByte_filling (b : Byte) (short : r.trailing.length < 2) :
    s.payloadByte p r n b = s.setSpr p { r with trailing := r.trailing ++ [b], byteCount := r.byteCount + 1 } := by
  simp [payloadByte, enterPair_filling b short, Spr.pairByte_filling b short]

theorem payloadByte_written {old kept : Byte} (b : Byte) (pair : r.trailing = [old, kept]) {chain : List PoolCell}
    {last : PoolCell} (ends : r.cells = chain ++ [last]) (room : last.bytes.length < 64) :
    s.payloadByte p r n b =
      s.setSpr p
        { r with
          trailing := [kept, b], crc := crcByte r.crc old, byteCount := r.byteCount + 1
          cells := chain ++ [{ last with bytes := last.bytes ++ [old] }] } := by
  simp [payloadByte, pair, enterPair, ends, lastHasRoom_append, room, appendByte_append, Spr.pairByte_full b pair]

theorem payloadByte_claiming {old kept : Byte} (b : Byte) (pair : r.trailing = [old, kept])
    (full : ∀ chain last, r.cells = chain ++ [last] → 64 ≤ last.bytes.length) {c : Nat} {rest : List Nat}
    (free : s.txPool.freeCells = c :: rest) :
    s.payloadByte p r n b =
      (s.mapTxPool fun _ => { s.txPool with freeCells := rest }).setSpr p
        { r with
          trailing := [kept, b], crc := crcByte r.crc old, byteCount := r.byteCount + 1
          cells := r.cells ++ [{ number := c, bytes := [old] }] } := by
  simp [payloadByte, pair, enterPair, lastHasRoom_full full, TxPool.claimCell, free, Spr.pairByte_full b pair]

theorem payloadByte_short {old kept : Byte} (b : Byte) (pair : r.trailing = [old, kept])
    (full : ∀ chain last, r.cells = chain ++ [last] → 64 ≤ last.bytes.length) (none : s.txPool.freeCells = []) :
    s.payloadByte p r n b = s.dropNoBuffer p r n := by
  simp [payloadByte, pair, enterPair, lastHasRoom_full full, TxPool.claimCell, none]

/-! ### The frame that finds no cell (R96, R106, R110) -/

theorem dropNoBuffer_sprs_self : (s.dropNoBuffer p r n).sprs.get p = Spr.cleared (.dropping .noBuffer) := by
  simp [dropNoBuffer]

/-- The frame's holdings join the free lists at their tails. -/
theorem dropNoBuffer_pool :
    (s.dropNoBuffer p r n).txPool.freeCells = s.txPool.freeCells ++ r.cells.map (·.number) ∧
      (s.dropNoBuffer p r n).txPool.freeDescs = s.txPool.freeDescs ++ [n] := by
  simp [dropNoBuffer, txClaimFailed_txPool, TxPool.giveBack, TxPool.noteReturn, setSpr]

theorem dropNoBuffer_recorded (unreported : s.txPool.exhaustionReported = false) :
    recordAccepted s (s.dropNoBuffer p r n) .poolExhausted (.port p) none 2#16 :=
  recordAccepted_congr rfl rfl rfl
    ((s.setSpr p (Spr.cleared (.dropping .noBuffer))).txClaimFailed_recorded (.port p) 2 unreported)

theorem dropNoBuffer_onlyChanges :
    onlyChanges [.sprs, .txPool, .rxPool, .egress, .agent, .counters, .events] s (s.dropNoBuffer p r n) :=
  onlyChanges_chain (setSpr_onlyChanges p _)
    (onlyChanges_chain (txClaimFailed_onlyChanges _ _) (mapTxPool_onlyChanges _) (List.Subset.refl _)) (by decide)

/-! ### The byte by its place in the frame (R95) -/

theorem payloadByte_otherPort {q : Port} (b : Byte) (other : q ≠ p) :
    (s.payloadByte p r n b).sprs.get q = s.sprs.get q := by
  unfold payloadByte
  repeat' split
  all_goals simp [dropNoBuffer, other]

theorem takeByte_otherPort {q : Port} (b : Byte) (other : q ≠ p) : (s.takeByte p b).sprs.get q = s.sprs.get q := by
  unfold takeByte
  dsimp only
  repeat' split
  all_goals simp [payloadByte_otherPort, other]

theorem takeByte_ignored (b : Byte) (ignores : ∀ n, (s.sprs.get p).state ≠ .receiving n) : s.takeByte p b = s := by
  unfold takeByte
  dsimp only
  split
  · rename_i n receiving
    exact absurd receiving (ignores n)
  · rfl
  · rfl
  · rfl

/-- A byte clocked in RECEIVING. -/
theorem takeByte_receiving (b : Byte) (holds : s.sprs.get p = r) (receiving : r.state = .receiving n) :
    s.takeByte p b =
      if r.byteCount < 4 then s.setSpr p (r.headerByte b)
      else if r.byteCount < 1542 then s.payloadByte p r n b
      else s.setSpr p { r with overlength := true } := by
  subst holds
  simp [takeByte, receiving, Config.longestStationFrame]

end State
end Sys2Proof.Machine

open Sys2Proof Sys2Proof.Machine in
/-- Settles O22, by the byte's place in the frame, and for a byte that leaves the pair by where a cell for it is found. -/
theorem stationByteIsTaken : Obligations.StationByteIsTaken := by
  intro s p b r rest high holds
  have executed := Laws.exec_stationByteReceived s p b rest high
  refine ⟨fun ignores => ?_, fun n receiving => ?_⟩
  · rw [executed, State.takeByte_ignored b (by rwa [holds])]
  have taken := State.takeByte_receiving b holds receiving
  have payload (later : 4 ≤ r.byteCount) (within : r.byteCount < 1542) : s.takeByte p b = s.payloadByte p r n b := by
    rw [taken, if_neg (Nat.not_lt.2 later), if_pos within]
  refine ⟨_, executed, fun q other => State.takeByte_otherPort b other, fun early => ?_, fun long => ?_,
    fun later within short => ?_, fun old kept later within pair => ⟨fun chain last ends room => ?_, fun full =>
      ⟨fun c cells free => ?_, fun none => ?_⟩⟩⟩
  · rw [taken, if_pos early]
    exact ⟨State.setSpr_sprs_self p _, State.setSpr_onlyChanges p _⟩
  · rw [taken, if_neg (by omega), if_neg (Nat.not_lt.2 long)]
    exact ⟨State.setSpr_sprs_self p _, State.setSpr_onlyChanges p _⟩
  · rw [payload later within, State.payloadByte_filling b short]
    exact ⟨State.setSpr_sprs_self p _, State.setSpr_onlyChanges p _⟩
  · rw [payload later within, State.payloadByte_written b pair ends room]
    exact ⟨State.setSpr_sprs_self p _, State.setSpr_onlyChanges p _⟩
  · rw [payload later within, State.payloadByte_claiming b pair full free]
    exact ⟨State.setSpr_sprs_self p _, rfl,
      onlyChanges_chain (State.mapTxPool_onlyChanges _) (State.setSpr_onlyChanges p _) (by decide)⟩
  · rw [payload later within, State.payloadByte_short b pair full none]
    obtain ⟨cells, descs⟩ := s.dropNoBuffer_pool (p := p) (r := r) (n := n)
    refine ⟨?_, ?_, ?_, descs, State.dropNoBuffer_recorded, State.dropNoBuffer_onlyChanges⟩
    · rw [State.dropNoBuffer_sprs_self]
      rfl
    · rw [State.dropNoBuffer_sprs_self]
      rfl
    · rw [cells, none, List.nil_append]
end

section
/-! FRAME_VALID_FALL of a frame that is dropped, and of a good management frame (R97, R100, R108, R156, R157). -/

namespace Sys2Proof.Machine

/-! ### The outcome of a fall (R97) -/

/-- The first reason of orders 2 to 5 that applies to a frame in RECEIVING. -/
theorem outcome_of_badFrame {r : Spr} {enabled : Bool} {counter : PortCounter}
    (bad : (enabled = false ∧ counter = .disabled) ∨ (enabled = true ∧ r.byteCount < 6 ∧ counter = .runt) ∨
      (enabled = true ∧ 6 ≤ r.byteCount ∧
        (r.overlength = true ∨ r.declaredLength = 0 ∨ 1536 < r.declaredLength ∨ r.byteCount ≠ r.declaredLength + 6) ∧
          counter = .length) ∨
      (enabled = true ∧ 6 ≤ r.byteCount ∧ r.overlength = false ∧ 1 ≤ r.declaredLength ∧ r.declaredLength ≤ 1536 ∧
        r.byteCount = r.declaredLength + 6 ∧ r.crc ≠ halfAt r.trailing 0 ∧ counter = .crc)) :
    r.outcome enabled = .dropped counter := by
  unfold Spr.outcome
  rcases bad with ⟨off, rfl⟩ | ⟨on, runt, rfl⟩ | ⟨on, bytes, length, rfl⟩ | ⟨on, bytes, short, some, atMost, agree, crc, rfl⟩
  · rw [if_pos off]
  · rw [if_neg (by simp [on]), if_pos runt]
  · rw [if_neg (by simp [on]), if_neg (Nat.not_lt.2 bytes), if_pos (by rwa [Nat.lt_one_iff])]
  · rw [if_neg (by simp [on]), if_neg (Nat.not_lt.2 bytes), if_neg (by simp [short, agree]; omega), if_pos crc]

/-- A good frame of the management stream is a management frame. -/
theorem outcome_of_goodFall_management {s : State} {p : Port} {r : Spr} {n : Nat} (good : goodFall s p r n)
    (management : halfAt r.header 0 = 65535#16) : r.outcome (s.config.active.ports.get p).enabled = .management := by
  obtain ⟨-, -, -, -, enabled, short, some, atMost, bytes, crc⟩ := good
  have declared : r.declaredLength = (halfAt r.header 2).toNat := rfl
  have stream : r.stream = Config.mgmtStream := management
  unfold Spr.outcome
  rw [if_neg (by simp [enabled]), if_neg (by omega), if_neg (by simp [short, declared, bytes]; omega),
    if_neg (by simp [crc]), if_pos stream]

/-! ### The payload from a station port (R156) -/

section
variable {queued : Nat} {bs : List Byte}

theorem classifyPayload_station_tooShort (short : bs.length < 3) : classifyPayload false queued bs = .dropped .short :=
  if_pos short

theorem classifyPayload_station_long (long : 256 < bs.length) : classifyPayload false queued bs = .dropped .long := by
  simp [classifyPayload, Config.longestPayload, long, show ¬bs.length < 3 by omega]

theorem classifyPayload_station_type (some : 3 ≤ bs.length) (atMost : bs.length ≤ 256) (type : 1 < (byteAt bs 2).toNat) :
    classifyPayload false queued bs = .dropped .type := by
  simp [classifyPayload, Config.longestPayload, Nat.not_lt.2 some, Nat.not_lt.2 atMost, type]

/-- With an accepted length so far and an accepted type, the header and a place in the queue decide. -/
theorem classifyPayload_station_request (some : 3 ≤ bs.length) (atMost : bs.length ≤ 256)
    (type : (byteAt bs 2).toNat ≤ 1) :
    classifyPayload false queued bs =
      if bs.length < 6 then .dropped .short else if 4 ≤ queued then .dropped .queueFull else .request := by
  have within : ¬Config.longestPayload < bs.length := Nat.not_lt.2 atMost
  rw [classifyPayload, if_neg (Nat.not_lt.2 some), if_neg within, if_neg (by simp), if_neg (Nat.not_lt.2 type)]
  rfl

/-- The first reason of R156 that applies, by its code in MGMT_DROPPED. -/
theorem classifyPayload_station_dropped {code : Nat}
    (reason : (bs.length < 3 ∧ code = 1) ∨ (256 < bs.length ∧ code = 2) ∨
      (3 ≤ bs.length ∧ bs.length ≤ 256 ∧ 1 < (byteAt bs 2).toNat ∧ code = 4) ∨
      (3 ≤ bs.length ∧ bs.length < 6 ∧ (byteAt bs 2).toNat ≤ 1 ∧ code = 1) ∨
      (6 ≤ bs.length ∧ bs.length ≤ 256 ∧ (byteAt bs 2).toNat ≤ 1 ∧ 4 ≤ queued ∧ code = 3)) :
    ∃ d : DropReason, classifyPayload false queued bs = .dropped d ∧ d.code = code := by
  rcases reason with ⟨short, rfl⟩ | ⟨long, rfl⟩ | ⟨some, atMost, type, rfl⟩ | ⟨some, short, type, rfl⟩ |
    ⟨some, atMost, type, full, rfl⟩
  · exact ⟨.short, classifyPayload_station_tooShort short, rfl⟩
  · exact ⟨.long, classifyPayload_station_long long, rfl⟩
  · exact ⟨.type, classifyPayload_station_type some atMost type, rfl⟩
  · exact ⟨.short, by rw [classifyPayload_station_request some (by omega) type, if_pos short], rfl⟩
  · exact ⟨.queueFull,
      by rw [classifyPayload_station_request (by omega) atMost type, if_neg (Nat.not_lt.2 some), if_pos full], rfl⟩

end

namespace State

variable {s : State} {p : Port} {r : Spr} {n : Nat}

/-! ### The fall by the receiver's state (R97, R108) -/

theorem takeFall_skipping (skipping : (s.sprs.get p).state = .skipping) : s.takeFall p = s.setSpr p (Spr.cleared .idle) := by
  simp [takeFall, skipping]

theorem fall_dropping {reason : SprDrop} (dropping : (s.sprs.get p).state = .dropping reason) :
    (s.setFrameValid p false).takeFall p = (s.fallen p none).countPort p reason.counter := by
  simp [takeFall, setFrameValid, fallen, dropping]

theorem fall_receiving (holds : s.sprs.get p = r) (receiving : r.state = .receiving n) :
    (s.setFrameValid p false).takeFall p = (s.fallen p none).endFrame p r n := by
  subst holds
  simp [takeFall, setFrameValid, fallen, receiving]

theorem fallen_otherPort {q : Port} (hit : Option Nat) (other : q ≠ p) : (s.fallen p hit).sprs.get q = s.sprs.get q := by
  cases hit <;> exact setSpr_sprs_other (s := s.setFrameValid p false) (Spr.cleared .idle) other

theorem giveBackFrame_onlyChanges (s : State) (r : Spr) (n : Nat) : onlyChanges [.txPool] s (s.giveBackFrame r n) :=
  mapTxPool_onlyChanges _

theorem countPort_onlyChanges (c : PortCounter) : onlyChanges [.counters] s (s.countPort p c) := by
  intro b hb
  cases b <;> first | exact absurd (by decide) hb | rfl

theorem endFrame_dropped {c : PortCounter} (outcome : r.outcome (s.config.active.ports.get p).enabled = .dropped c) :
    s.endFrame p r n = (s.giveBackFrame r n).countPort p c := by
  simp [endFrame, outcome]

theorem endFrame_management (outcome : r.outcome (s.config.active.ports.get p).enabled = .management) :
    s.endFrame p r n = s.managementFrame p r n := by
  simp [endFrame, outcome]

/-! ### The management frame (R100) -/

theorem managementFrame_refused (refused : (s.config.active.ports.get p).mgmtPermitted = false) :
    s.managementFrame p r n = (s.giveBackFrame r n).countPort p .mgmtRefused := by
  simp [managementFrame, refused]

theorem managementFrame_permitted (permitted : (s.config.active.ports.get p).mgmtPermitted = true) :
    s.managementFrame p r n = (s.giveBackFrame r n).stationPayload p (chainBytes r.cells) := by
  simp [managementFrame, permitted]

theorem stationPayload_port (bs : List Byte) : (s.stationPayload p bs).counters.port = s.counters.port := by
  unfold stationPayload
  split <;> simp

/-- What a management frame leaves, permitted or refused. -/
theorem managementFrame_kept (s : State) (p : Port) (r : Spr) (n : Nat) :
    (s.managementFrame p r n).pins = s.pins ∧ (s.managementFrame p r n).sprs = s.sprs ∧
      (s.managementFrame p r n).txPool = (s.giveBackFrame r n).txPool ∧
      (s.managementFrame p r n).counters.portAt p .framesIn = s.counters.portAt p .framesIn := by
  cases permission : (s.config.active.ports.get p).mgmtPermitted with
  | false =>
    rw [managementFrame_refused permission]
    simp [giveBackFrame]
  | true =>
    rw [managementFrame_permitted permission, CounterBank.portAt_congr (stationPayload_port _)]
    simp [giveBackFrame]

/-! ### A payload taken or dropped (R156, R157) -/

theorem acceptRequest_onlyChanges (source : Source) (bs : List Byte) :
    onlyChanges [.agent, .counters] s (s.acceptRequest source bs) := by
  intro b hb
  cases b <;> first | exact absurd (by decide) hb | rfl

theorem dropPayload_onlyChanges (subject : Subject) (d : DropReason) :
    onlyChanges [.counters, .agent, .events, .rxPool, .egress] s (s.dropPayload subject d) := by
  intro b hb
  cases b <;> first | exact absurd (by decide) hb | simp [Block.same]

theorem dropPayload_counted (subject : Subject) (d : DropReason) :
    mgmtCounted s (s.dropPayload subject d) .droppedRequests 1 := by
  rw [mgmtCounted, dropPayload, offerEvent_mgmtCounter _ _ _ _ _ _ (by decide) (by decide)]
  simp

theorem dropPayload_recorded (subject : Subject) (d : DropReason) :
    recordAccepted s (s.dropPayload subject d) .mgmtDropped subject none (BitVec.ofNat 16 d.code) :=
  recordAccepted_congr rfl rfl rfl
    ((s.countMgmt .droppedRequests).recordAccepted_offerEvent .mgmtDropped subject none (BitVec.ofNat 16 d.code))

/-- A payload joins the queue while that has a place. -/
theorem stationPayload_request {bs : List Byte} (header : 6 ≤ bs.length) (atMost : bs.length ≤ 256)
    (type : (byteAt bs 2).toNat ≤ 1) (place : s.agent.requests.length < 4) :
    s.stationPayload p bs = s.acceptRequest (.station p) bs := by
  simp [stationPayload, classifyPayload_station_request (by omega) atMost type, Nat.not_lt.2 header, Nat.not_le.2 place]

theorem stationPayload_dropped {bs : List Byte} {d : DropReason}
    (dropped : classifyPayload false s.agent.requests.length bs = .dropped d) :
    s.stationPayload p bs = s.dropPayload (.port p) d := by
  simp [stationPayload, dropped]

end State
end Sys2Proof.Machine

open Sys2Proof Sys2Proof.Machine in
/-- Settles O23, by the receiver's state; a frame in RECEIVING goes back to the pool and is counted under its outcome. -/
theorem fallDropsABadFrame : Obligations.FallDropsABadFrame := by
  intro s p r rest high holds
  have executed := Laws.exec_frameValidFall s p rest high
  have falls := s.fallen_onlyChanges p none
  refine ⟨fun skipping => ⟨_, executed, ?_⟩, fun reason dropping => ⟨_, executed, ?_⟩,
    fun n counter receiving bad => ⟨_, executed, ?_⟩⟩
  · rw [State.takeFall_skipping (by subst holds; exact skipping)]
    refine ⟨by rw [State.setSpr_sprs_self]; rfl, rfl, ?_⟩
    exact onlyChanges_chain (State.setFrameValid_onlyChanges p false) (State.setSpr_onlyChanges p _) (by decide)
  · rw [State.fall_dropping (by rw [holds]; exact dropping)]
    refine ⟨s.fallen_sprs p none, ?_, s.fallen_pins p none,
      onlyChanges_chain falls (State.countPort_onlyChanges _) (by decide)⟩
    rw [State.countPort_counters, s.fallen_counters]
    cases reason <;> rfl
  · have outcome := outcome_of_badFrame bad
    rw [State.fall_receiving holds receiving, State.endFrame_dropped (s := s.fallen p none) outcome]
    obtain ⟨descs, cells⟩ := (s.fallen p none).giveBackFrame_pool r n
    refine ⟨s.fallen_sprs p none, cells, descs, ?_, s.fallen_pins p none, fun q other => s.fallen_otherPort none other,
      onlyChanges_chain falls (State.giveBackFrame_countPort_onlyChanges p r n counter) (by decide)⟩
    rw [State.countPort_counters]
    exact congrArg (·.plusPort p counter) (s.fallen_counters p none)

open Sys2Proof Sys2Proof.Machine in
/-- Settles O25, by the port's permission, and for a permitted payload by its row of R156. -/
theorem fallHandsAPayloadToTheAgent : Obligations.FallHandsAPayloadToTheAgent := by
  intro s p r n good management
  have outcome := outcome_of_goodFall_management good management
  obtain ⟨rest, high, holds, receiving, -⟩ := good
  obtain ⟨u, hu⟩ : ∃ u, u = s.fallen p none := ⟨_, rfl⟩
  obtain ⟨v, hv⟩ : ∃ v, v = u.giveBackFrame r n := ⟨_, rfl⟩
  have falls : onlyChanges [.pins, .sprs, .counters] s u := hu ▸ s.fallen_onlyChanges p none
  have config : u.config = s.config := falls .config (by decide)
  have pool : u.txPool = s.txPool := falls .txPool (by decide)
  have executed : exec (.frameValidFall p) s = .next (u.managementFrame p r n) := by
    rw [Laws.exec_frameValidFall s p rest high, State.fall_receiving holds receiving, ← hu,
      State.endFrame_management (by rwa [config])]
  have counters : u.counters = s.counters.plusPort p .framesIn := hu ▸ s.fallen_counters p none
  obtain ⟨pins, sprs, pool', framesIn⟩ := u.managementFrame_kept p r n
  obtain ⟨descs, cells⟩ := u.giveBackFrame_pool r n
  refine ⟨_, executed, ?_, ?_, ?_, ?_, ?_, fun refused => ?_, fun permitted payload chain => ?_⟩
  · rw [sprs, hu]
    exact s.fallen_sprs p none
  · rw [pins, hu]
    exact s.fallen_pins p none
  · simp [portCounted, framesIn, counters]
  · rw [pool', descs, pool]
  · rw [pool', cells, pool]
  · rw [State.managementFrame_refused (by rwa [config]), hu]
    obtain ⟨counted, -, -, changes⟩ := s.fallen_givenBack p none r n (c := .mgmtRefused) (by decide)
    exact ⟨counted, changes⟩
  · have givenBack : onlyChanges [.pins, .sprs, .counters, .txPool] s v :=
      onlyChanges_chain falls (hv ▸ u.giveBackFrame_onlyChanges r n) (by decide)
    have agent : v.agent = s.agent := givenBack .agent (by decide)
    have mgmt : v.counters.mgmt = s.counters.mgmt := by simp [hv, State.giveBackFrame, counters]
    rw [State.managementFrame_permitted (by rwa [config]), ← hv, ← chain]
    refine ⟨fun header atMost type place => ?_, fun reason dropped => ?_⟩
    · rw [State.stationPayload_request header atMost type (by rwa [agent])]
      refine ⟨?_, ?_, onlyChanges_chain givenBack (State.acceptRequest_onlyChanges _ _) (by decide)⟩
      · simp [State.acceptRequest, agent]
      · simp [mgmtCounted, State.acceptRequest, CounterBank.mgmtAt_congr mgmt]
    · obtain ⟨d, row, rfl⟩ := classifyPayload_station_dropped dropped
      rw [State.stationPayload_dropped (by rwa [agent])]
      refine ⟨?_, ?_, ?_, onlyChanges_chain givenBack (State.dropPayload_onlyChanges _ _) (by decide)⟩
      · rw [mgmtCounted, State.dropPayload_counted, CounterBank.mgmtAt_congr mgmt]
      · simp [agent]
      · exact recordAccepted_congr (givenBack .events (by decide)) (givenBack .time (by decide)) rfl
          (State.dropPayload_recorded _ _)
end

section
/-! SUPPORT. The Receive Pool kept whole (R110, R112). A release hands a frame's cells and descriptor back to its own
part, so a pool is whole exactly when it is whole with one frame released; and a claim, a stored cell or cells handed back
early are seen to keep the pool by releasing the frame they concern. -/

namespace Sys2Proof.Machine

/-! ### Sparse tables as lists -/

section Sparse

variable {α : Type} {k : Nat} {v : α} {m : List (Nat × α)}

theorem sparseErase_of_unused (h : ∀ e ∈ m, e.1 ≠ k) : sparseErase k m = m := by
  induction m with
  | nil => rfl
  | cons e m ih =>
    obtain ⟨other, rest⟩ := List.forall_mem_cons.1 h
    rw [sparseErase, if_neg other, ih rest]

/-- What an insertion put at a key is gone with the key. -/
@[simp] theorem sparseErase_insert : sparseErase k (sparseInsert k v m) = sparseErase k m := by
  induction m with
  | nil => simp [sparseInsert, sparseErase]
  | cons e m ih =>
    obtain ⟨i, w⟩ := e
    by_cases below : k < i
    · simp [sparseInsert, sparseErase, below]
    · by_cases here : k = i
      · simp [sparseInsert, sparseErase, here]
      · simp [sparseInsert, sparseErase, below, here, Ne.symm here, ih]

/-- An entry in a table of rising keys, told apart from the others. -/
theorem perm_cons_sparseErase (rising : sparseRising m = true) (h : sparseGet k m = some v) :
    m.Perm ((k, v) :: sparseErase k m) := by
  induction m with
  | nil => cases h
  | cons e m ih =>
    obtain ⟨i, w⟩ := e
    obtain ⟨above, rest⟩ := (sparseRising_cons i w m).1 rising
    rw [sparseGet_cons] at h
    by_cases here : i = k
    · subst here
      rw [if_pos rfl] at h
      injection h with h
      subst h
      rw [sparseErase, if_pos rfl, sparseErase_of_unused fun x hx => Nat.ne_of_gt (above x hx)]
    · rw [if_neg here] at h
      rw [sparseErase, if_neg here]
      exact ((ih rest h).cons _).trans (.swap _ _ _)

end Sparse

/-! ### The two parts of the pool -/

/-- The same free numbers, in some order. -/
def RxPart.sameFree (a b : RxPart) : Prop := a.freeCells.Perm b.freeCells ∧ a.freeDescs.Perm b.freeDescs

theorem RxPart.sameFree_refl (a : RxPart) : a.sameFree a := ⟨.refl _, .refl _⟩

/-- A frame handed back: its cells, then its descriptor (R110). -/
def RxPart.giveBackFrame (a : RxPart) (n : Nat) (d : RxDescriptor) : RxPart := (a.giveBack d.chain).giveBackDesc n

@[simp] theorem RxPart.giveBackFrame_lists (a : RxPart) (n : Nat) (d : RxDescriptor) :
    (a.giveBackFrame n d).freeCells = a.freeCells ++ chainNumbers d.chain ∧
      (a.giveBackFrame n d).freeDescs = a.freeDescs ++ [n] := ⟨rfl, rfl⟩

@[simp] theorem fillCells_numbers (ns : List Nat) (bs : List Byte) : chainNumbers (fillCells ns bs) = ns := by
  induction ns generalizing bs with
  | nil => rfl
  | cons n ns ih => exact congrArg (n :: ·) (ih _)

@[simp] theorem overwriteFirst_numbers (bs : List Byte) (cells : List PoolCell) :
    chainNumbers (overwriteFirst bs cells) = chainNumbers cells := by
  cases cells <;> rfl

namespace RxPool

/-- The level part or the management reserve, named as the invariant names them. -/
def part (p : RxPool) : Bool → RxPart
  | true => p.levelPart
  | false => p.reserve

/-- The cells of a part (R112). -/
def partCells : Bool → List Nat
  | true => List.range 1008
  | false => List.range' 1008 16

/-- The descriptors of a part (R112). -/
def partDescs : Bool → List Nat
  | true => List.range 124
  | false => List.range' 124 4

/-- Every cell and descriptor of a part is on its free list or in use exactly once. -/
def partKept (p : RxPool) (b : Bool) : Prop :=
  ((p.part b).freeCells ++ p.cellsInUse b).Perm (partCells b) ∧
    ((p.part b).freeDescs ++ (p.inUse b).map (·.1)).Perm (partDescs b)

variable {p q : RxPool} {n : Nat} {d : RxDescriptor}

@[simp] theorem part_putDesc (p : RxPool) (n : Nat) (d : RxDescriptor) (b : Bool) :
    (p.putDesc n d).part b = p.part b := by
  cases b <;> rfl

theorem kept_iff : p.kept ↔ sparseRising p.descs = true ∧ ∀ b, p.partKept b := by
  rw [Bool.forall_bool]
  constructor
  · rintro ⟨rising, levelCells, levelDescs, reserveCells, reserveDescs⟩
    exact ⟨rising, ⟨reserveCells, reserveDescs⟩, levelCells, levelDescs⟩
  · rintro ⟨rising, ⟨reserveCells, reserveDescs⟩, levelCells, levelDescs⟩
    exact ⟨rising, levelCells, levelDescs, reserveCells, reserveDescs⟩

/-- The order of the free lists is no part of the invariant. -/
theorem kept_of_sameFree (hd : q.descs = p.descs) (hf : ∀ b, (q.part b).sameFree (p.part b)) (h : p.kept) : q.kept := by
  obtain ⟨rising, parts⟩ := kept_iff.1 h
  have used (b : Bool) : q.inUse b = p.inUse b := by simp only [inUse, hd]
  refine kept_iff.2 ⟨hd ▸ rising, fun b => ?_⟩
  obtain ⟨cells, descs⟩ := parts b
  obtain ⟨freeCells, freeDescs⟩ := hf b
  rw [partKept, cellsInUse, used]
  exact ⟨(freeCells.append_right _).trans cells, (freeDescs.append_right _).trans descs⟩

/-- The exhaustion-reported flag is no part of the invariant. -/
theorem kept_setFlag (b : Bool) (h : p.kept) : { p with exhaustionReported := b }.kept := h

theorem partDescs_nodup (b : Bool) : (partDescs b).Nodup := by
  cases b
  · exact List.nodup_range'
  · exact List.nodup_range

/-- The parts share no descriptor. -/
theorem partDescs_disjoint {a b : Bool} (ha : n ∈ partDescs a) (hb : n ∈ partDescs b) : a = b := by
  cases a <;> cases b <;> simp [partDescs] at ha hb ⊢ <;> omega

/-- A descriptor on a free list is not in use. -/
theorem desc_of_free (h : p.kept) {b : Bool} (free : n ∈ (p.part b).freeDescs) : p.desc n = none := by
  obtain ⟨rising, parts⟩ := kept_iff.1 h
  refine Option.eq_none_iff_forall_ne_some.2 fun d hd => ?_
  have used : n ∈ (p.inUse d.inLevelPart).map (·.1) :=
    List.mem_map.2 ⟨(n, d), List.mem_filter.2 ⟨(sparseGet_eq_some n d _ rising).1 hd, by simp⟩, rfl⟩
  obtain rfl : b = d.inLevelPart :=
    partDescs_disjoint ((parts b).2.mem_iff.1 (List.mem_append_left _ free))
      ((parts _).2.mem_iff.1 (List.mem_append_right _ used))
  exact not_mem_of_perm_range (parts _).2 (partDescs_nodup _) n free used

/-! ### A release -/

theorem release_unused (h : p.desc n = none) : p.release n = p := by
  rw [release, h]

/-- A release hands the frame back to the part it was claimed from, and to no other (R112, R117). -/
theorem release_used (h : p.desc n = some d) :
    (p.release n).descs = sparseErase n p.descs ∧
      ∀ b, (p.release n).part b = if b = d.inLevelPart then (p.part b).giveBackFrame n d else p.part b := by
  rw [release, h, Bool.forall_bool, RxDescriptor.inLevelPart]
  dsimp only
  cases d.cls <;> exact ⟨rfl, rfl, rfl⟩

/-- The frames in use after a release, whether or not the number was in use. -/
theorem release_descs (rising : sparseRising p.descs = true) : (p.release n).descs = sparseErase n p.descs := by
  cases h : p.desc n with
  | none =>
    rw [release_unused h, sparseErase_of_unused]
    rintro ⟨m, e⟩ mem rfl
    exact Option.some_ne_none e (((sparseGet_eq_some m e _ rising).2 mem).symm.trans h)
  | some d => exact (release_used h).1

/-- The descriptors in use of a part, with the released frame told apart. -/
theorem inUse_perm_release (rising : sparseRising p.descs = true) (h : p.desc n = some d) (b : Bool) :
    (p.inUse b).Perm (if b = d.inLevelPart then (n, d) :: (p.release n).inUse b else (p.release n).inUse b) := by
  have apart := (perm_cons_sparseErase rising h).filter fun e => e.2.inLevelPart == b
  rw [List.filter_cons, ← (release_used h).1] at apart
  simpa [inUse, eq_comm (a := b)] using apart

/-- The order in which the descriptors in use are listed is no part of the invariant. -/
theorem partKept_iff_of_perm {b : Bool} {used : List (Nat × RxDescriptor)} (h : (p.inUse b).Perm used) :
    p.partKept b ↔
      ((p.part b).freeCells ++ used.flatMap fun e => chainNumbers e.2.chain).Perm (partCells b) ∧
        ((p.part b).freeDescs ++ used.map (·.1)).Perm (partDescs b) := by
  have cells := h.flatMap_right fun e => chainNumbers e.2.chain
  have descs := h.map (·.1)
  rw [partKept, cellsInUse, (cells.append_left _).congr_left, (descs.append_left _).congr_left]

theorem partKept_release (rising : sparseRising p.descs = true) (h : p.desc n = some d) (b : Bool) :
    (p.release n).partKept b ↔ p.partKept b := by
  have used := inUse_perm_release rising h b
  have parts := (release_used h).2 b
  rw [partKept_iff_of_perm used, partKept, cellsInUse, parts]
  by_cases own : b = d.inLevelPart
  · simp [own]
  · simp [own]

/-- A pool is whole exactly when it is whole with one frame released. -/
theorem release_kept_iff (rising : sparseRising p.descs = true) : (p.release n).kept ↔ p.kept := by
  cases h : p.desc n with
  | none => rw [release_unused h]
  | some d =>
    have erased : sparseRising (p.release n).descs = true := (release_used h).1 ▸ sparseRising_erase n _ rising
    simp only [kept_iff, rising, erased, partKept_release rising h]

theorem release_kept (n : Nat) (h : p.kept) : (p.release n).kept := (release_kept_iff (kept_iff.1 h).1).2 h

/-! ### A frame put in use or changed -/

/-- A descriptor put at a number keeps the pool when handing its frame back leaves what a release of the number leaves. -/
theorem kept_of_put (h : p.kept) (hd : q.descs = sparseInsert n d p.descs)
    (hf : ∀ b, (if b = d.inLevelPart then (q.part b).giveBackFrame n d else q.part b).sameFree ((p.release n).part b)) :
    q.kept := by
  have before : sparseRising p.descs = true := (kept_iff.1 h).1
  have rising : sparseRising q.descs = true := hd ▸ sparseRising_insert n d _ before
  have used : q.desc n = some d := by rw [desc, hd, sparseGet_insert_self]
  have descs : (q.release n).descs = (p.release n).descs := by
    rw [release_descs rising, release_descs before, hd, sparseErase_insert]
  have parts (b : Bool) : ((q.release n).part b).sameFree ((p.release n).part b) := (release_used used).2 b ▸ hf b
  exact (release_kept_iff rising).1 (kept_of_sameFree descs parts (release_kept n h))

/-- A change that leaves a frame its class and its cells. -/
theorem mapDesc_kept (n : Nat) (f : RxDescriptor → RxDescriptor)
    (hf : ∀ d, (f d).cls = d.cls ∧ chainNumbers (f d).chain = chainNumbers d.chain) (h : p.kept) :
    (p.mapDesc n f).kept := by
  unfold mapDesc
  split
  · exact h
  · rename_i d hd
    obtain ⟨cls, chain⟩ := hf d
    have alike : (f d).inLevelPart = d.inLevelPart := by rw [RxDescriptor.inLevelPart, RxDescriptor.inLevelPart, cls]
    refine kept_of_put h rfl fun b => ?_
    rw [(release_used hd).2 b, alike, part_putDesc]
    split
    · exact ⟨by simp [chain], by simp⟩
    · exact RxPart.sameFree_refl _

/-- Cells dropped go back to the part their frame was claimed from (R55, R112). -/
theorem dropCells_used (h : p.desc n = some d) :
    (p.dropCells n).descs = sparseInsert n { d with chain := [] } p.descs ∧
      ∀ b, (p.dropCells n).part b = if b = d.inLevelPart then (p.part b).giveBack d.chain else p.part b := by
  rw [dropCells, h, Bool.forall_bool, RxDescriptor.inLevelPart]
  dsimp only
  cases d.cls <;> exact ⟨rfl, rfl, rfl⟩

/-- The cells of a frame marked discarding go back ahead of its descriptor (R55). -/
theorem dropCells_kept (n : Nat) (h : p.kept) : (p.dropCells n).kept := by
  cases hd : p.desc n with
  | none =>
    rw [dropCells, hd]
    exact h
  | some d =>
    obtain ⟨descs, parts⟩ := dropCells_used hd
    have alike : RxDescriptor.inLevelPart { d with chain := [] } = d.inLevelPart := rfl
    refine kept_of_put h descs fun b => ?_
    rw [(release_used hd).2 b, parts b, alike]
    split
    · exact ⟨by simp [RxPart.giveBack, chainNumbers], by simp [RxPart.giveBack]⟩
    · exact RxPart.sameFree_refl _

/-- A level descriptor claimed is the first free one, and its frame has no cells yet (R48). -/
theorem claimLevelDesc_kept {l : Level} {stream : Half} {length : Nat}
    (e : p.claimLevelDesc l stream length = some (n, q)) (h : p.kept) : q.kept := by
  unfold claimLevelDesc at e
  split at e
  · cases e
  · rename_i m ms free
    injection e with e
    injection e with hn hq
    subst hn hq
    have unused : p.desc m = none := desc_of_free (b := true) h (by simp [part, free])
    refine kept_of_put h rfl fun b => ?_
    rw [release_unused unused, part_putDesc]
    cases b with
    | true =>
      exact ⟨by simp [RxDescriptor.inLevelPart, part, chainNumbers], by simp [RxDescriptor.inLevelPart, part, free]⟩
    | false => exact RxPart.sameFree_refl _

/-- A cell stored is the first free one, and ends its frame's chain (R49). -/
theorem storeCell_kept {l : Level} {bs : List Byte} (e : p.storeCell l n bs = some q) (h : p.kept) : q.kept := by
  unfold storeCell at e
  split at e
  · rename_i c cs d free named
    injection e with e
    subst e
    obtain ⟨used, ofLevel⟩ := Option.filter_eq_some_iff.1 named
    have own : d.inLevelPart = true := by
      rw [RxDescriptor.inLevelPart, of_decide_eq_true ofLevel]
    have alike : RxDescriptor.inLevelPart { d with chain := d.chain ++ [PoolCell.mk c bs] } = true := own
    refine kept_of_put h rfl fun b => ?_
    rw [(release_used used).2 b, part_putDesc, alike, own]
    cases b with
    | true =>
      refine ⟨?_, by simp [part]⟩
      simpa [part, free, chainNumbers] using List.perm_append_singleton c (cs ++ chainNumbers d.chain)
    | false => exact RxPart.sameFree_refl _
  · cases e
  · cases e

/-- A claim on the reserve takes the first free descriptor and the first free cells (R112). -/
theorem claimReserve_kept {stream : Half} {payload : List Byte} (e : p.claimReserve stream payload = some (n, q))
    (h : p.kept) : q.kept := by
  unfold claimReserve at e
  split at e
  · cases e
  · rename_i m ms free
    split at e
    · injection e with e
      injection e with hn hq
      subst hn hq
      have unused : p.desc m = none := desc_of_free (b := false) h (by simp [part, free])
      refine kept_of_put h rfl fun b => ?_
      rw [release_unused unused, part_putDesc]
      cases b with
      | true => exact RxPart.sameFree_refl _
      | false =>
        refine ⟨?_, by simp [RxDescriptor.inLevelPart, part, free]⟩
        have cells := List.perm_append_comm.trans
          (List.Perm.of_eq (p.reserve.freeCells.take_append_drop (cellsFor payload.length)))
        simpa [RxDescriptor.inLevelPart, part] using cells
    · cases e

end RxPool
end Sys2Proof.Machine
end

section
/-! SUPPORT. Every event keeps the Receive Pool whole (R110, R112): one lemma per operation that claims from the pool or
returns to it, and then every command. -/

namespace Sys2Proof.Machine

namespace State

variable {s : State}

/-- Any number of operations each of which keeps the pool. -/
theorem foldl_keepsRxPool {α : Type} {f : State → α → State}
    (hf : ∀ (t : State) (a : α), t.rxPool.kept → (f t a).rxPool.kept) (as : List α) (h : s.rxPool.kept) :
    (as.foldl f s).rxPool.kept :=
  List.foldlRecOn as f (motive := fun t : State => t.rxPool.kept) h fun t ht a _ => hf t a ht

/-! ### Frames of the management reserve (R112, R159, R183) -/

theorem placeReserve_keepsRxPool {t : State} {p : Port} {stream : Half} {bs : List Byte} {n : Nat}
    (e : s.placeReserve p stream bs = some (n, t)) (h : s.rxPool.kept) : t.rxPool.kept := by
  unfold placeReserve at e
  split at e
  · cases e
  · rename_i m pool claimed
    injection e with e
    injection e with _ e
    subst e
    simpa using RxPool.claimReserve_kept claimed h

theorem sendNotice_keepsRxPool (r : EventRecord) (h : s.rxPool.kept) : (s.sendNotice r).rxPool.kept := by
  unfold sendNotice
  split
  · simpa using h
  · rename_i placed
    simpa using placeReserve_keepsRxPool placed h

theorem acceptRecord_keepsRxPool (r : EventRecord) (h : s.rxPool.kept) : (s.acceptRecord r).rxPool.kept := by
  unfold acceptRecord noticeCheck
  split
  · exact sendNotice_keepsRxPool r h
  · exact h

theorem offerEvent_keepsRxPool (k : EventKind) (b : Subject) (n : Option Half) (d : Half) (h : s.rxPool.kept) :
    (s.offerEvent k b n d).rxPool.kept := by
  unfold offerEvent
  split
  · exact acceptRecord_keepsRxPool _ h
  · split
    · exact h
    · exact acceptRecord_keepsRxPool _ h

theorem txClaimFailed_keepsRxPool (b : Subject) (n : Nat) (h : s.rxPool.kept) : (s.txClaimFailed b n).rxPool.kept := by
  unfold txClaimFailed
  split
  · exact h
  · exact offerEvent_keepsRxPool _ _ _ _ h

theorem rxClaimFailed_keepsRxPool (l : Level) (stream : Half) (n : Nat) (h : s.rxPool.kept) :
    (s.rxClaimFailed l stream n).rxPool.kept := by
  unfold rxClaimFailed
  split
  · exact h
  · exact offerEvent_keepsRxPool _ _ _ _ (RxPool.kept_setFlag true h)

theorem localReply_keepsRxPool (p : Port) (stream : Half) (bs : List Byte) (h : s.rxPool.kept) :
    (s.localReply p stream bs).1.rxPool.kept := by
  unfold localReply
  split
  · simpa using h
  · rename_i placed
    simpa using placeReserve_keepsRxPool placed h

theorem answerPeer_keepsRxPool (a : Status) (e : PeerEntry) (h : s.rxPool.kept) : (answerPeer a s e).rxPool.kept :=
  localReply_keepsRxPool _ _ _ h

theorem answerPeers_keepsRxPool (a : Status) (es : List PeerEntry) (h : s.rxPool.kept) :
    (es.foldl (answerPeer a) s).rxPool.kept :=
  foldl_keepsRxPool (fun _ e ht => answerPeer_keepsRxPool a e ht) es h

theorem dropPayload_keepsRxPool (b : Subject) (r : DropReason) (h : s.rxPool.kept) : (s.dropPayload b r).rxPool.kept :=
  offerEvent_keepsRxPool _ _ _ _ h

theorem stationPayload_keepsRxPool (p : Port) (bs : List Byte) (h : s.rxPool.kept) :
    (s.stationPayload p bs).rxPool.kept := by
  unfold stationPayload
  split
  · exact dropPayload_keepsRxPool _ _ h
  · exact h
  · exact h

/-! ### Delivery and egress (R116, R117, R121, R123, R129) -/

theorem releaseRx_keepsRxPool (n : Nat) (h : s.rxPool.kept) : (s.releaseRx n).rxPool.kept := RxPool.release_kept n h

theorem peerReply_keepsRxPool (n : Nat) (bs : List Byte) (h : s.rxPool.kept) : (s.peerReply n bs).rxPool.kept := by
  unfold peerReply
  split
  · exact offerEvent_keepsRxPool _ _ _ _ (releaseRx_keepsRxPool n h)
  · exact RxPool.mapDesc_kept n _ (fun _ => ⟨rfl, by simp⟩) h

theorem trunkPayload_keepsRxPool (n : Nat) (bs : List Byte) (h : s.rxPool.kept) : (s.trunkPayload n bs).rxPool.kept := by
  unfold trunkPayload
  split
  · exact dropPayload_keepsRxPool _ _ (releaseRx_keepsRxPool n h)
  · exact peerReply_keepsRxPool n bs h
  · exact releaseRx_keepsRxPool n h

theorem offerTo_keepsRxPool (n cells : Nat) (p : Port) (h : s.rxPool.kept) : (offerTo n cells s p).rxPool.kept := by
  unfold offerTo
  split
  · exact RxPool.mapDesc_kept n _ (fun _ => ⟨rfl, rfl⟩) h
  · exact h

theorem afterOffers_keepsRxPool (n : Nat) (h : s.rxPool.kept) : (s.afterOffers n).rxPool.kept := by
  unfold afterOffers
  split
  · exact h
  · split
    · exact releaseRx_keepsRxPool n h
    · exact RxPool.mapDesc_kept n _ (fun _ => ⟨rfl, rfl⟩) h

theorem deliverUser_keepsRxPool (n : Nat) (d : RxDescriptor) (h : s.rxPool.kept) : (s.deliverUser n d).rxPool.kept := by
  have readdressed : (s.mapRxPool fun r => r.mapDesc n fun d =>
      { d with stream := s.config.active.outputStream d.stream, holder := .delivery, refCount := 0 }).rxPool.kept :=
    RxPool.mapDesc_kept n _ (fun _ => ⟨rfl, rfl⟩) h
  exact afterOffers_keepsRxPool n (foldl_keepsRxPool (fun _ p ht => offerTo_keepsRxPool n _ p ht) _ readdressed)

theorem deliver_keepsRxPool (n : Nat) (h : s.rxPool.kept) : (s.deliver n).rxPool.kept := by
  unfold deliver
  split
  · exact h
  · split
    · exact trunkPayload_keepsRxPool n _ (RxPool.mapDesc_kept n _ (fun _ => ⟨rfl, rfl⟩) h)
    · exact deliverUser_keepsRxPool n _ h

theorem handOff_keepsRxPool (l : Level) (n : Nat) (h : s.rxPool.kept) : (s.handOff l n).rxPool.kept :=
  deliver_keepsRxPool n h

theorem lowerRef_keepsRxPool (n : Nat) (h : s.rxPool.kept) : (s.lowerRef n).rxPool.kept := by
  unfold lowerRef
  split
  · exact h
  · split
    · exact releaseRx_keepsRxPool n h
    · exact RxPool.mapDesc_kept n _ (fun _ => ⟨rfl, rfl⟩) h

/-! ### The Reassembler (R48 to R59, R62) -/

theorem recordAbort_keepsRxPool (l : Level) (stream : Half) (r : AbortReason) (h : s.rxPool.kept) :
    (s.recordAbort l stream r).rxPool.kept :=
  offerEvent_keepsRxPool _ _ _ _ h

theorem abortEntry_keepsRxPool (r : AbortReason) (e : RxEntry) (h : s.rxPool.kept) : (abortEntry r s e).rxPool.kept := by
  refine recordAbort_keepsRxPool _ _ _ ?_
  unfold returnEntry
  split
  · exact h
  · exact releaseRx_keepsRxPool _ h

theorem abortWhere_keepsRxPool (named : RxEntry → Bool) (r : AbortReason) (h : s.rxPool.kept) :
    (s.abortWhere named r).rxPool.kept :=
  foldl_keepsRxPool (fun _ e ht => abortEntry_keepsRxPool r e ht) _ h

theorem cellRefused_keepsRxPool (l : Level) (stream seq : Half) (h : s.rxPool.kept) :
    (s.cellRefused l stream seq).rxPool.kept := by
  unfold cellRefused
  split
  · exact rxClaimFailed_keepsRxPool _ _ _ h
  · exact offerEvent_keepsRxPool _ _ _ _ h

theorem storeCell_keepsRxPool {t : State} {l : Level} {n : Nat} {bs : List Byte} (e : s.storeCell l n bs = some t)
    (h : s.rxPool.kept) : t.rxPool.kept := by
  obtain ⟨p, stored, -, rfl⟩ := storeCell_eq _ _ _ _ e
  exact RxPool.storeCell_kept stored h

theorem markDiscarding_keepsRxPool (l : Level) (r : AbortReason) (h : s.rxPool.kept) :
    (s.markDiscarding l r).rxPool.kept := by
  have returned (e : RxEntry) : (s.returnEntryCells e).rxPool.kept := by
    unfold returnEntryCells
    split
    · exact RxPool.dropCells_kept _ h
    · exact h
  unfold markDiscarding
  split
  · exact h
  · exact returned _

theorem startFrame_keepsRxPool (d : RxData) (h : s.rxPool.kept) : (s.startFrame d).rxPool.kept := by
  unfold startFrame
  split
  · exact rxClaimFailed_keepsRxPool _ _ _ h
  · rename_i m pool claimed
    have holding : (s.mapRxPool fun _ => pool).rxPool.kept := RxPool.claimLevelDesc_kept claimed h
    dsimp only
    split
    · exact cellRefused_keepsRxPool _ _ _ holding
    · rename_i stored
      simpa using storeCell_keepsRxPool stored holding

theorem wholeFrame_keepsRxPool (d : RxData) (h : s.rxPool.kept) : (s.wholeFrame d).rxPool.kept := by
  unfold wholeFrame
  split
  · exact recordAbort_keepsRxPool _ _ _ (rxClaimFailed_keepsRxPool _ _ _ h)
  · rename_i m pool claimed
    have holding : (s.mapRxPool fun _ => pool).rxPool.kept := RxPool.claimLevelDesc_kept claimed h
    split
    · exact recordAbort_keepsRxPool _ _ _ (cellRefused_keepsRxPool _ _ _ h)
    · rename_i stored
      exact handOff_keepsRxPool _ _ (storeCell_keepsRxPool stored holding)

theorem storeSegment_keepsRxPool (e : RxEntry) (d : RxData) (h : s.rxPool.kept) :
    (s.storeSegment e d).1.rxPool.kept := by
  unfold storeSegment
  split
  · exact markDiscarding_keepsRxPool _ _ h
  · split
    · exact markDiscarding_keepsRxPool _ _ (cellRefused_keepsRxPool _ _ _ h)
    · rename_i found
      obtain ⟨n, -, stored⟩ := Option.bind_eq_some_iff.mp found
      simpa using storeCell_keepsRxPool stored h

theorem completeFrame_keepsRxPool (e : RxEntry) (h : s.rxPool.kept) : (s.completeFrame e).rxPool.kept := by
  unfold completeFrame
  dsimp only
  split
  · exact h
  · exact handOff_keepsRxPool _ _ h

theorem matchedSegment_keepsRxPool (e : RxEntry) (d : RxData) (h : s.rxPool.kept) :
    (s.matchedSegment e d).rxPool.kept := by
  have stored := storeSegment_keepsRxPool e d h
  unfold matchedSegment
  dsimp only
  split
  · split
    · exact abortWhere_keepsRxPool _ _ h
    · exact h
  · split <;> rename_i q <;> rw [q] at stored
    · split
      · exact abortWhere_keepsRxPool _ _ stored
      · exact stored
    · split
      · split
        · exact completeFrame_keepsRxPool e stored
        · exact abortWhere_keepsRxPool _ _ stored
      · exact stored

theorem continueFrame_keepsRxPool (d : RxData) (h : s.rxPool.kept) : (s.continueFrame d).rxPool.kept := by
  unfold continueFrame
  split
  · exact h
  · dsimp only
    split
    · exact matchedSegment_keepsRxPool _ d (abortWhere_keepsRxPool _ _ h)
    · exact abortWhere_keepsRxPool _ _ (abortWhere_keepsRxPool _ _ h)

theorem kindRule_keepsRxPool (d : RxData) (h : s.rxPool.kept) : (s.kindRule d).rxPool.kept := by
  unfold kindRule
  split
  · exact startFrame_keepsRxPool d (abortWhere_keepsRxPool _ _ h)
  · exact wholeFrame_keepsRxPool d (abortWhere_keepsRxPool _ _ h)
  · exact continueFrame_keepsRxPool d h
  · exact continueFrame_keepsRxPool d h

theorem reassemble_keepsRxPool (d : RxData) (h : s.rxPool.kept) : (s.reassemble d).rxPool.kept := by
  unfold reassemble
  dsimp only
  split
  · exact kindRule_keepsRxPool d h
  · split
    · exact kindRule_keepsRxPool d (markDiscarding_keepsRxPool _ _ h)
    · exact h

/-! ### DOWN events and segments on arrival (R70 to R80) -/

theorem txTeardown_keepsRxPool (h : s.rxPool.kept) : s.txTeardown.rxPool.kept := by
  have settled : ((fourIndices.foldl (settleLevel s) s).rxPool).kept := by simpa [fourIndices] using h
  unfold txTeardown
  dsimp only
  split
  · exact settled
  · exact offerEvent_keepsRxPool _ _ _ _ settled

theorem linkDown_keepsRxPool (cause : LinkCause) (h : s.rxPool.kept) : (s.linkDown cause).rxPool.kept := by
  by_cases hd : s.link.state = .down
  · simpa [linkDown, hd] using h
  · rw [linkDown_eq s cause hd]
    have announced : (s.downAnnounced cause).rxPool.kept :=
      offerEvent_keepsRxPool _ _ _ _ (answerPeers_keepsRxPool _ _ h)
    exact txTeardown_keepsRxPool (abortWhere_keepsRxPool _ _ announced)

theorem enterUp_keepsRxPool (h : s.rxPool.kept) : s.enterUp.rxPool.kept :=
  offerEvent_keepsRxPool _ _ _ _ (by simpa [fourIndices] using h)

theorem takeUp_keepsRxPool (g : GoodSegment) (h : s.rxPool.kept) : (s.takeUp g).rxPool.kept := by
  cases g with
  | data d => simpa [takeUp] using reassemble_keepsRxPool d h
  | control limits => simpa [takeUp] using h
  | hello heardYou limits => exact h

theorem enterUpWith_keepsRxPool (g : GoodSegment) (h : s.rxPool.kept) : (s.enterUpWith g).rxPool.kept := by
  have entered : s.enterUp.countEntrySegment.useFree.rxPool.kept := by simpa using enterUp_keepsRxPool h
  unfold enterUpWith
  dsimp only
  split
  · exact takeUp_keepsRxPool g (by simpa using entered)
  · simpa using takeUp_keepsRxPool g entered

theorem goodInHello_keepsRxPool (g : GoodSegment) (h : s.rxPool.kept) : (s.goodInHello g).rxPool.kept := by
  unfold goodInHello
  split
  · split
    · simpa [enterUpAtHello] using enterUp_keepsRxPool (s := s.storeHello _) h
    · exact h
  · split
    · exact enterUpWith_keepsRxPool _ h
    · exact h
  · split
    · exact enterUpWith_keepsRxPool _ h
    · exact h

theorem goodInUp_keepsRxPool (g : GoodSegment) (h : s.rxPool.kept) : (s.goodInUp g).rxPool.kept := by
  unfold goodInUp
  dsimp only
  split
  · split
    · exact h
    · exact linkDown_keepsRxPool _ h
  · exact takeUp_keepsRxPool _ h
  · exact takeUp_keepsRxPool _ h

theorem goodSegment_keepsRxPool (g : GoodSegment) (h : s.rxPool.kept) : (s.goodSegment g).rxPool.kept := by
  have counted : (match g with
      | .control _ => (s.countTrunk .segmentsReceived).countTrunk .controlReceived
      | .data _ => s.countTrunk .segmentsReceived
      | .hello _ _ => s.countTrunk .segmentsReceived).rxPool.kept := by
    cases g <;> exact h
  unfold goodSegment
  dsimp only
  split
  · exact counted
  · exact goodInHello_keepsRxPool g counted
  · exact goodInUp_keepsRxPool g counted

theorem badSegment_keepsRxPool (h : s.rxPool.kept) : s.badSegment.rxPool.kept := by
  unfold badSegment
  dsimp only
  split
  · split
    · exact linkDown_keepsRxPool _ h
    · exact h
  · exact h

/-! ### Restarts and deferred commands (R120, R167 to R169, R176) -/

theorem restarted_keepsRxPool (pins : Pins) (signal : Bool) (cause : RestartCause) (trunkTx : TrunkTx)
    (egress : Four EgressPort) (freeCount : Nat) (pending : List Instr) :
    (State.restarted pins signal cause trunkTx egress freeCount pending).rxPool.kept := by
  simpa using RxPool.cold_kept

/-- All of the pool is free when a TRAFFIC restart answers the pending peers (R176). -/
theorem restartTraffic_keepsRxPool (s : State) : s.restartTraffic.rxPool.kept := by
  have emptied : s.trafficEmptied.rxPool.kept := by simpa using RxPool.cold_kept
  exact offerEvent_keepsRxPool _ _ _ _ (answerPeers_keepsRxPool _ _ emptied)

theorem linkAction_keepsRxPool (a : LinkAction) (h : s.rxPool.kept) : (s.linkAction a).rxPool.kept := by
  cases a with
  | drop =>
    simp only [linkAction, linkDrop]
    split
    · split <;> exact h
    · exact linkDown_keepsRxPool _ h
  | hold =>
    simp only [linkAction, linkHold]
    split
    · exact h
    · exact linkDown_keepsRxPool _ h
  | release => simpa [linkAction] using h

theorem applyCommand_keepsRxPool (c : DeferredCommand) (h : s.rxPool.kept) : (s.applyCommand c).rxPool.kept := by
  cases c with
  | linkControl a => exact linkAction_keepsRxPool a h
  | restart k =>
    cases k with
    | traffic => exact restartTraffic_keepsRxPool _
    | full => exact restarted_keepsRxPool _ _ _ _ _ _ _

theorem replyLeft_keepsRxPool (left : AwaitedReply) (h : s.rxPool.kept) : (s.replyLeft left).rxPool.kept := by
  unfold replyLeft
  split
  · exact h
  · split
    · exact applyCommand_keepsRxPool _ h
    · exact h

theorem releaseIfDown_keepsRxPool (before : State) (h : s.rxPool.kept) : (releaseIfDown before s).rxPool.kept := by
  unfold releaseIfDown commandOnDown
  split
  · split
    · exact h
    · exact h
    · exact applyCommand_keepsRxPool _ h
  · exact h

/-! ### Replies and the execution of requests (R158 to R171) -/

theorem sendTrunk_keepsRxPool (origin : Origin) (payload : List Byte) (h : s.rxPool.kept) :
    (s.sendTrunk origin payload).1.rxPool.kept := by
  unfold sendTrunk
  split
  · exact txClaimFailed_keepsRxPool _ _ h
  · simpa using h

theorem trunkReply_keepsRxPool (g : Half) (bs : List Byte) (h : s.rxPool.kept) : (s.trunkReply g bs).1.rxPool.kept := by
  have sent := sendTrunk_keepsRxPool .trunkReply bs h
  unfold trunkReply
  split
  · split <;> rename_i q <;> rw [q] at sent <;> exact sent
  · exact h

theorem reply_keepsRxPool (r : Request) (status : Status) (results : List Byte) (h : s.rxPool.kept) :
    (s.reply r status results).1.rxPool.kept := by
  unfold reply
  split
  · exact localReply_keepsRxPool _ _ _ h
  · exact trunkReply_keepsRxPool _ _ h

theorem deferCommand_keepsRxPool (r : Request) (c : Option DeferredCommand) (h : s.rxPool.kept) :
    (s.deferCommand r c).rxPool.kept := by
  cases c with
  | none => exact reply_keepsRxPool r .range [] h
  | some c =>
    have replied := reply_keepsRxPool r .ok [] h
    simp only [deferCommand]
    cases hr : (s.reply r .ok []).2 with
    | none => exact applyCommand_keepsRxPool c replied
    | some awaited => exact replied

/-! What a command carries out before its reply leaves the Receive Pool as it was. -/

theorem carryReadEntries_rxPool (args : List Byte) : (s.carryReadEntries args).state.rxPool = s.rxPool := by
  unfold carryReadEntries readEntriesOf
  dsimp only
  repeat' split
  all_goals rfl

theorem carryReadCounters_rxPool (args : List Byte) : (s.carryReadCounters args).state.rxPool = s.rxPool := by
  unfold carryReadCounters
  repeat' split
  all_goals rfl

theorem carryReadEvents_rxPool (args : List Byte) : (s.carryReadEvents args).state.rxPool = s.rxPool := by
  unfold carryReadEvents
  dsimp only
  split <;> rfl

theorem carryAckEvents_rxPool (args : List Byte) : (s.carryAckEvents args).state.rxPool = s.rxPool := by
  unfold carryAckEvents
  dsimp only
  split <;> rfl

theorem carryFlushLevel_rxPool (args : List Byte) : (s.carryFlushLevel args).state.rxPool = s.rxPool := by
  unfold carryFlushLevel
  split
  · rfl
  · simp

theorem carryOut_keepsRxPool (r : Request) (h : s.rxPool.kept) : (s.carryOut r).rxPool.kept := by
  have sent (a : Answer) (ha : a.state.rxPool = s.rxPool) : (a.send r).rxPool.kept := reply_keepsRxPool r _ _ (ha ▸ h)
  unfold carryOut
  split
  · exact sent _ rfl
  · exact sent _ (carryReadEntries_rxPool _)
  · exact sent _ rfl
  · exact sent _ rfl
  · exact sent _ rfl
  · exact sent _ (carryReadCounters_rxPool _)
  · exact sent _ (carryReadEvents_rxPool _)
  · exact sent _ (carryAckEvents_rxPool _)
  · exact sent _ (carryFlushLevel_rxPool _)
  · exact deferCommand_keepsRxPool r _ h
  · exact deferCommand_keepsRxPool r _ h

theorem forward_keepsRxPool (r : Request) (p : Port) (h : s.rxPool.kept) : (s.forward r p).rxPool.kept := by
  have sent := sendTrunk_keepsRxPool .forwardedRequest (r.relayed (s.newPeer r p).localTag) h
  unfold forward
  split
  · exact reply_keepsRxPool r _ _ h
  · split
    · exact reply_keepsRxPool r _ _ h
    · dsimp only
      split <;> rename_i q <;> rw [q] at sent
      · exact reply_keepsRxPool r _ _ sent
      · exact sent

theorem executeLocal_keepsRxPool (r : Request) (h : s.rxPool.kept) : (s.executeLocal r).rxPool.kept := by
  unfold executeLocal
  split
  · exact reply_keepsRxPool r _ _ h
  · split
    · exact reply_keepsRxPool r _ _ h
    · exact carryOut_keepsRxPool r h

theorem executeHead_keepsRxPool (r : Request) (h : s.rxPool.kept) : (s.executeHead r).rxPool.kept := by
  have taken : (s.mapAgent fun a => { a with requests := a.requests.tail }).rxPool.kept := h
  unfold executeHead executeRequest
  split
  · split
    · exact reply_keepsRxPool r _ _ taken
    · split
      · exact reply_keepsRxPool r _ _ taken
      · exact executeLocal_keepsRxPool r taken
  · split
    · exact forward_keepsRxPool r _ taken
    · exact executeLocal_keepsRxPool r taken

/-! ### The events of the lines, the ports and the timers -/

theorem lineSymbol_keepsRxPool (how : ReceptionEnd) (h : s.rxPool.kept) : (s.lineSymbol how).rxPool.kept := by
  have opened (t : State) (ht : t.rxPool.kept) : (t.openReception how).rxPool.kept := by cases how <;> exact ht
  unfold lineSymbol
  split
  · exact opened s h
  · refine opened _ (releaseIfDown_keepsRxPool s ?_)
    unfold reportSegment
    split
    · exact badSegment_keepsRxPool h
    · exact goodSegment_keepsRxPool _ h

theorem signalLost_keepsRxPool (h : s.rxPool.kept) : s.signalLost.rxPool.kept := by
  unfold signalLost
  dsimp only
  split
  · exact h
  · exact releaseIfDown_keepsRxPool _ (linkDown_keepsRxPool _ h)

theorem signalBack_keepsRxPool (h : s.rxPool.kept) : s.signalBack.rxPool.kept := by
  unfold signalBack
  dsimp only
  split
  · simpa [setSignal] using h
  · exact h

theorem takeRise_keepsRxPool (p : Port) (h : s.rxPool.kept) : (s.takeRise p).rxPool.kept := by
  have begun : (s.beginFrame p).rxPool.kept := by
    unfold beginFrame
    split
    · exact txClaimFailed_keepsRxPool _ _ h
    · exact h
  unfold takeRise
  split
  · exact begun
  · exact begun
  · exact h
  · exact h

theorem payloadByte_keepsRxPool (p : Port) (r : Spr) (n : Nat) (b : Byte) (h : s.rxPool.kept) :
    (s.payloadByte p r n b).rxPool.kept := by
  unfold payloadByte dropNoBuffer
  split
  · exact h
  · split
    · exact h
    · split
      · exact txClaimFailed_keepsRxPool (s := s.setSpr p _) _ _ h
      · exact h

theorem takeByte_keepsRxPool (p : Port) (b : Byte) (h : s.rxPool.kept) : (s.takeByte p b).rxPool.kept := by
  unfold takeByte
  dsimp only
  split
  · split
    · exact h
    · split
      · exact payloadByte_keepsRxPool p _ _ b h
      · exact h
  · exact h
  · exact h
  · exact h

theorem userFrame_keepsRxPool (p : Port) (r : Spr) (n : Nat) (h : s.rxPool.kept) : (s.userFrame p r n).rxPool.kept := by
  have treated (t : State) (c : Classified) (ht : t.rxPool.kept) : (t.treatFrame p r n c).rxPool.kept := by
    unfold treatFrame
    split
    · exact ht
    · split
      · simpa using ht
      · exact ht
  unfold userFrame
  refine treated _ _ ?_
  split <;> exact h

theorem takeFall_keepsRxPool (p : Port) (h : s.rxPool.kept) : (s.takeFall p).rxPool.kept := by
  unfold takeFall
  dsimp only
  split
  · exact h
  · exact h
  · exact h
  · unfold endFrame
    split
    · exact h
    · unfold managementFrame
      split
      · exact stationPayload_keepsRxPool _ _ h
      · exact h
    · exact userFrame_keepsRxPool p _ _ h

theorem transmissionDone_keepsRxPool (h : s.rxPool.kept) : s.transmissionDone.rxPool.kept := by
  have completed (g : Segment) : (s.segmentCompleted g).rxPool.kept := by simpa using h
  unfold transmissionDone
  split
  · exact h
  · split
    · rename_i g _ _ _
      simpa using completed g
    · simpa using replyLeft_keepsRxPool _ (completed _)

theorem suspensionExpired_keepsRxPool (l : Level) (h : s.rxPool.kept) : (s.suspensionExpired l).rxPool.kept := by
  unfold suspensionExpired
  split
  · exact h
  · split
    · exact offerEvent_keepsRxPool _ _ _ _ h
    · exact h

theorem ageAt_keepsRxPool (l : Level) (h : s.rxPool.kept) : (s.ageAt l).rxPool.kept := by
  have marked := markDiscarding_keepsRxPool (s := s.mapReasm fun a =>
    { a with stack := a.stack.map fun e => if e.level = l then { e with ageDeadline := none } else e }) l .age h
  simpa [ageAt] using marked

theorem peerExpired_keepsRxPool (tag : Byte) (h : s.rxPool.kept) : (s.peerExpired tag).rxPool.kept := by
  unfold peerExpired
  split
  · exact h
  · split
    · exact offerEvent_keepsRxPool _ _ _ _ (answerPeer_keepsRxPool _ _ h)
    · exact h

theorem egressCompleted_keepsRxPool (p : Port) (h : s.rxPool.kept) : (s.egressCompleted p).rxPool.kept := by
  unfold egressCompleted
  split
  · rename_i n _ _ _
    have out : (s.frameOut p n).rxPool.kept := lowerRef_keepsRxPool n h
    exact replyLeft_keepsRxPool _ (by simpa using out)
  · exact h
  · exact h
  · exact h

/-- An event that is taken when a condition holds. -/
theorem ite_keepsRxPool {c : Prop} [Decidable c] {t u : State} (ht : t.rxPool.kept) (hu : u.rxPool.kept) :
    (if c then t else u).rxPool.kept := by
  split
  · exact ht
  · exact hu

theorem eventRunning_keepsRxPool (c : Instr) (h : s.rxPool.kept) : (eventRunning c s).rxPool.kept := by
  cases c with
  | lineSignalLoss => exact ite_keepsRxPool (signalLost_keepsRxPool h) h
  | lineSignalReturn => exact ite_keepsRxPool h (signalBack_keepsRxPool h)
  | segmentReceptionEnd how => exact lineSymbol_keepsRxPool how h
  | startDelimiterArrival => exact lineSymbol_keepsRxPool _ h
  | frameValidRise p => exact ite_keepsRxPool h (takeRise_keepsRxPool p h)
  | stationByteReceived p b => exact ite_keepsRxPool (takeByte_keepsRxPool p b h) h
  | frameValidFall p => exact ite_keepsRxPool (takeFall_keepsRxPool p h) h
  | transmissionCompletion => exact transmissionDone_keepsRxPool h
  | holdOffExpiry => exact ite_keepsRxPool (by simpa using h) h
  | helloDeadlineExpiry => exact ite_keepsRxPool (by simpa [nextHello] using h) h
  | silenceDeadlineExpiry => exact ite_keepsRxPool (releaseIfDown_keepsRxPool s (linkDown_keepsRxPool _ h)) h
  | keepaliveDeadlineExpiry => exact ite_keepsRxPool (by simpa [keepalive] using h) h
  | advanceDeadlineExpiry l => exact ite_keepsRxPool (by simpa [advanceAged] using h) h
  | suspensionDeadlineExpiry l => exact suspensionExpired_keepsRxPool l h
  | ageDeadlineExpiry l => exact ite_keepsRxPool (ageAt_keepsRxPool l h) h
  | peerDeadlineExpiry tag => exact peerExpired_keepsRxPool tag h
  | copyBackCompletion => exact ite_keepsRxPool (offerEvent_keepsRxPool _ _ _ _ h) h
  | egressCompletion p => exact egressCompleted_keepsRxPool p h
  | _ => exact h

/-- The Receive Pool is kept whole by everything the part can do. -/
theorem rxPoolKept_keptBySteps : KeptBySteps fun s => s.rxPool.kept where
  queue _ _ _ h := h
  resetAsserted _ _ _ h := h
  coldStart _ _ := restarted_keepsRxPool _ _ _ _ _ _ _
  supplyLost _ h := h
  execution _ r h _ := executeHead_keepsRxPool r h
  held c _ h := by cases c <;> exact h
  event c _ h := eventRunning_keepsRxPool c h
  tick _ h := h

end State

end Sys2Proof.Machine

/-- Settles O56, by the induction over every kind of step. -/
theorem everyStepKeepsTheReceivePool : Obligations.EveryStepKeepsTheReceivePool :=
  fun _ _ h e => Sys2Proof.Machine.State.rxPoolKept_keptBySteps.step h e
end

section
/-! SUPPORT. The entries that WRITE ENTRY reads, each check of its fields by name (R136 to R141, R192), and the bytes in
which READ ENTRIES returns them (R162, R192). -/

namespace Sys2Proof.Machine

/-! ### The checks of one field (R141, R192) -/

theorem lowBitsClear_eq_some {b : Byte} {bits : Nat} {u : Unit} : lowBitsClear b bits = some u ↔ b.toNat % 2 ^ bits = 0 := by
  simp [lowBitsClear]

/-- A byte whose eight low bits are 0 is 0. -/
theorem byte_mod_eq_zero {b : Byte} : b.toNat % 256 = 0 ↔ b = 0#8 := by
  rw [Nat.mod_eq_of_lt b.isLt, ← BitVec.toNat_inj]
  rfl

theorem inRange_eq_some {n lo hi m : Nat} : inRange n lo hi = some m ↔ (lo ≤ n ∧ n ≤ hi) ∧ m = n := by
  simp [inRange, eq_comm]

theorem fourOf_eq_some {b : Byte} {i : Fin 4} : fourOf b = some i ↔ b.toNat < 4 ∧ i = Fin.ofNat 4 b.toNat := by
  unfold fourOf
  split
  · rename_i small
    have same : (⟨b.toNat, small⟩ : Fin 4) = Fin.ofNat 4 b.toNat := Fin.ext (Nat.mod_eq_of_lt small).symm
    simp [small, same, eq_comm]
  · simp [*]

theorem matchPortOf_eq_some {b : Byte} {m : MatchPort} :
    matchPortOf b = some m ↔
      ¬(4 ≤ b.toNat ∧ b ≠ 0x0F#8) ∧ m = if b = 0x0F#8 then .any else .port (Fin.ofNat 4 b.toNat) := by
  unfold matchPortOf
  split
  · simp [*, eq_comm]
  · rename_i other
    have port : (fourOf b).map MatchPort.port = some m ↔ b.toNat < 4 ∧ m = .port (Fin.ofNat 4 b.toNat) := by
      simp only [Option.map_eq_some_iff, fourOf_eq_some, and_assoc, exists_and_left, exists_eq_left, eq_comm (b := m)]
    simp [port, other]

theorem maskOf_eq_some {b : Byte} {q : Four Bool} :
    maskOf b = some q ↔ b.toNat < 16 ∧ q = ⟨b.getLsbD 0, b.getLsbD 1, b.getLsbD 2, b.getLsbD 3⟩ := by
  simp [maskOf, eq_comm]

theorem severityOf_eq_some {b : Byte} {v : Severity} :
    severityOf b = some v ↔
      (b ≠ 0#8 ∧ b.toNat ≤ 3) ∧ v = if b = 1#8 then .info else if b = 2#8 then .warning else .error := by
  have named (n : Nat) : b = BitVec.ofNat 8 n ↔ b.toNat = n % 256 := by simp [← BitVec.toNat_inj]
  simp only [named, ne_eq]
  unfold severityOf
  split
  · simp [*, eq_comm]
  · simp [*, eq_comm]
  · simp [*, eq_comm]
  · rename_i not1 not2 not3
    refine iff_of_false nofun fun ⟨⟨positive, small⟩, _⟩ => ?_
    have : b.toNat ≠ 1 := not1
    have : b.toNat ≠ 2 := not2
    have : b.toNat ≠ 3 := not3
    omega

theorem userStream_eq_some {h n : Half} : userStream h = some n ↔ h ≠ 65535#16 ∧ n = h := by
  unfold userStream Config.mgmtStream
  split <;> simp [*, eq_comm]

theorem optionalStream_eq_some {present : Bool} {h : Half} {n : Option Half} :
    optionalStream present h = some n ↔ ¬(present = true ∧ h = 65535#16) ∧ n = if present then some h else none := by
  cases present
  · simp [optionalStream, eq_comm]
  · simp only [optionalStream, if_true, Option.map_eq_some_iff, userStream_eq_some, and_assoc, exists_and_left,
      exists_eq_left, true_and, eq_comm (b := n)]

theorem suspensionOf_eq_some {h : Half} {n : Nat} :
    suspensionOf h.toNat = some n ↔ ¬(h ≠ 0#16 ∧ h.toNat < 100) ∧ n = h.toNat := by
  have zero : h = 0#16 ↔ h.toNat = 0 := by simp [← BitVec.toNat_inj]
  have small : h.toNat ≤ 65535 := Nat.le_of_lt_succ h.isLt
  rw [ne_eq, zero]
  unfold suspensionOf
  split
  · simp [*, eq_comm]
  · simp [*, inRange_eq_some]

/-- A field of which 0 is not admitted. -/
theorem one_le_toNat {h : Half} : 1 ≤ h.toNat ↔ ¬h = 0#16 := by
  rw [← BitVec.toNat_inj, Nat.one_le_iff_ne_zero]
  rfl

theorem actionOf_eq (drop : Bool) : actionOf drop = if drop then .drop else .forward := rfl

/-! ### The five entries as read (R136 to R140, R192) -/

theorem readStreamEntry_eq_some {bs : List Byte} {e : StreamEntry} :
    readStreamEntry bs = some e ↔ ¬streamInvalid bs ∧ e.writtenAs bs := by
  simp only [readStreamEntry, Option.bind_eq_bind, Option.bind_eq_some_iff, lowBitsClear_eq_some, matchPortOf_eq_some,
    fourOf_eq_some, userStream_eq_some, optionalStream_eq_some, actionOf_eq, Nat.reducePow, byte_mod_eq_zero,
    Option.some.injEq, exists_const, exists_and_left, exists_eq_left, and_assoc, eq_comm (b := e)]
  simp only [streamInvalid, StreamEntry.writtenAs, not_or, Nat.not_le, ne_eq, Classical.not_not, and_assoc]

theorem readDeliveryEntry_eq_some {bs : List Byte} {e : DeliveryEntry} :
    readDeliveryEntry bs = some e ↔ ¬deliveryInvalid bs ∧ e.writtenAs bs := by
  simp only [readDeliveryEntry, Option.bind_eq_bind, Option.bind_eq_some_iff, lowBitsClear_eq_some, maskOf_eq_some,
    userStream_eq_some, optionalStream_eq_some, Nat.reducePow, Option.some.injEq, exists_const, exists_and_left,
    exists_eq_left, and_assoc, eq_comm (b := e)]
  simp only [deliveryInvalid, DeliveryEntry.writtenAs, not_or, Nat.not_le, ne_eq, Classical.not_not, and_assoc]

theorem readLevelEntry_eq_some {bs : List Byte} {e : LevelEntry} :
    readLevelEntry bs = some e ↔ ¬levelInvalid bs ∧ e.writtenAs bs := by
  simp only [readLevelEntry, Option.bind_eq_bind, Option.bind_eq_some_iff, lowBitsClear_eq_some, inRange_eq_some,
    suspensionOf_eq_some, Nat.reducePow, byte_mod_eq_zero, one_le_toNat, Nat.zero_le, Option.some.injEq, exists_const,
    exists_and_left, exists_eq_left, true_and, and_assoc, eq_comm (b := e)]
  simp only [levelInvalid, LevelEntry.writtenAs, not_or, Nat.not_lt, ne_eq, Classical.not_not, and_assoc]

theorem readPortSettings_eq_some {bs : List Byte} {e : PortSettings} :
    readPortSettings bs = some e ↔ ¬portInvalid bs ∧ e.writtenAs bs := by
  simp only [readPortSettings, Option.bind_eq_bind, Option.bind_eq_some_iff, lowBitsClear_eq_some, fourOf_eq_some,
    inRange_eq_some, actionOf_eq, Nat.reducePow, Nat.zero_le, Option.some.injEq, exists_const, exists_and_left,
    exists_eq_left, true_and, and_assoc, eq_comm (b := e)]
  simp only [portInvalid, PortSettings.writtenAs, not_or, Nat.not_lt, Nat.not_le, ne_eq, Classical.not_not, and_assoc]

theorem readPartSettings_eq_some {bs : List Byte} {e : PartSettings} :
    readPartSettings bs = some e ↔ ¬partInvalid bs ∧ e.writtenAs bs := by
  simp only [readPartSettings, Option.bind_eq_bind, Option.bind_eq_some_iff, lowBitsClear_eq_some, fourOf_eq_some,
    severityOf_eq_some, maskOf_eq_some, inRange_eq_some, Nat.reducePow, byte_mod_eq_zero, one_le_toNat, Option.some.injEq,
    exists_const, exists_and_left, exists_eq_left, and_assoc, eq_comm (b := e)]
  simp only [partInvalid, PartSettings.writtenAs, not_or, Nat.not_lt, Nat.not_le, ne_eq, Classical.not_not, and_assoc]

/-- Bytes of which one entry is read in the absence of a failed check are refused exactly when a check fails (R141). -/
theorem eq_none_iff_of_eq_some_iff {α : Type} {o : Option α} {invalid : Prop} {x : α}
    (read : ∀ e, o = some e ↔ ¬invalid ∧ e = x) : o = none ↔ invalid := by
  rw [Option.eq_none_iff_forall_ne_some]
  refine ⟨fun none => Classical.byContradiction fun valid => ?_, fun failed e h => ((read e).1 h).1 failed⟩
  exact none x ((read x).2 ⟨valid, rfl⟩)

theorem readStreamEntry_eq_none {bs : List Byte} : readStreamEntry bs = none ↔ streamInvalid bs :=
  eq_none_iff_of_eq_some_iff fun _ => readStreamEntry_eq_some

theorem readDeliveryEntry_eq_none {bs : List Byte} : readDeliveryEntry bs = none ↔ deliveryInvalid bs :=
  eq_none_iff_of_eq_some_iff fun _ => readDeliveryEntry_eq_some

theorem readLevelEntry_eq_none {bs : List Byte} : readLevelEntry bs = none ↔ levelInvalid bs :=
  eq_none_iff_of_eq_some_iff fun _ => readLevelEntry_eq_some

theorem readPortSettings_eq_none {bs : List Byte} : readPortSettings bs = none ↔ portInvalid bs :=
  eq_none_iff_of_eq_some_iff fun _ => readPortSettings_eq_some

theorem readPartSettings_eq_none {bs : List Byte} : readPartSettings bs = none ↔ partInvalid bs :=
  eq_none_iff_of_eq_some_iff fun _ => readPartSettings_eq_some

/-! ### What is read lies in its ranges (R136 to R140) -/

theorem StreamEntry.inRange_of_read {bs : List Byte} {e : StreamEntry} (h : readStreamEntry bs = some e) : e.inRange := by
  obtain ⟨valid, rfl⟩ := readStreamEntry_eq_some.1 h
  simp only [streamInvalid, not_or] at valid
  obtain ⟨-, -, -, -, stream, trunkStream⟩ := valid
  refine ⟨stream, ?_⟩
  dsimp only
  split
  · simpa [*] using trunkStream
  · exact nofun

theorem DeliveryEntry.inRange_of_read {bs : List Byte} {e : DeliveryEntry} (h : readDeliveryEntry bs = some e) :
    e.inRange := by
  obtain ⟨valid, rfl⟩ := readDeliveryEntry_eq_some.1 h
  simp only [deliveryInvalid, not_or] at valid
  obtain ⟨-, -, stream, egressStream⟩ := valid
  refine ⟨stream, ?_⟩
  dsimp only
  split
  · simpa [*] using egressStream
  · exact nofun

theorem LevelEntry.inRange_of_read {bs : List Byte} {e : LevelEntry} (h : readLevelEntry bs = some e) : e.inRange := by
  obtain ⟨valid, rfl⟩ := readLevelEntry_eq_some.1 h
  simp only [levelInvalid, not_or, ← one_le_toNat, ne_eq] at valid
  obtain ⟨txQueueLimit, -, -, maxSuspension, rxAllotment, ageAtLeast, ageAtMost, -, -⟩ := valid
  have := (halfAt bs 4).isLt
  simp only [LevelEntry.inRange]
  omega

theorem PortSettings.egressLimit_of_read {bs : List Byte} {e : PortSettings} (h : readPortSettings bs = some e) :
    e.egressLimit ≤ 1024 := by
  obtain ⟨valid, rfl⟩ := readPortSettings_eq_some.1 h
  simp only [portInvalid, not_or] at valid
  exact Nat.le_of_not_lt valid.2.2

theorem PartSettings.peerTimeout_of_read {bs : List Byte} {e : PartSettings} (h : readPartSettings bs = some e) :
    1 ≤ e.peerTimeout ∧ e.peerTimeout ≤ 1000 := by
  obtain ⟨valid, rfl⟩ := readPartSettings_eq_some.1 h
  simp only [partInvalid, not_or] at valid
  obtain ⟨-, -, -, -, -, positive, atMost, -, -⟩ := valid
  exact ⟨one_le_toNat.2 positive, Nat.le_of_not_lt atMost⟩

end Sys2Proof.Machine
end

section
/-! SUPPORT. What WRITE ENTRY, CLEAR SHADOW, COMMIT and the copy-back completion do to the banks, and that each keeps them in
range (R136 to R148). -/

namespace Sys2Proof.Machine

/-! ### Sparse tables with one entry for each key (R142) -/

section Sparse

variable {α : Type}

theorem sparseErase_sublist (k : Nat) (m : List (Nat × α)) : (sparseErase k m).Sublist m := by
  induction m with
  | nil => exact .slnil
  | cons e m ih =>
    unfold sparseErase
    split
    · exact ih.cons _
    · exact ih.cons_cons _

/-- An insertion keeps a relation that the new entry has to every entry of another index. -/
theorem pairwise_sparseInsert {R : Nat × α → Nat × α → Prop} (symm : ∀ {x y}, R x y → R y x) {k : Nat} {v : α}
    {m : List (Nat × α)} (rising : sparseRising m = true) (distinct : m.Pairwise R)
    (fresh : ∀ x ∈ m, x.1 ≠ k → R (k, v) x) : (sparseInsert k v m).Pairwise R := by
  induction m with
  | nil => exact List.pairwise_singleton _ _
  | cons e m ih =>
    obtain ⟨i, w⟩ := e
    obtain ⟨above, risingTail⟩ := (sparseRising_cons _ _ _).1 rising
    obtain ⟨head, tail⟩ := List.pairwise_cons.1 distinct
    have freshTail : ∀ x ∈ m, x.1 ≠ k → R (k, v) x := fun x hx => fresh x (List.mem_cons_of_mem _ hx)
    unfold sparseInsert
    split
    · rename_i before
      refine List.pairwise_cons.2 ⟨fun x hx => fresh x hx ?_, distinct⟩
      rcases List.mem_cons.1 hx with rfl | hx
      · exact Nat.ne_of_gt before
      · exact Nat.ne_of_gt (Nat.lt_trans before (above x hx))
    · split
      · rename_i same
        exact List.pairwise_cons.2 ⟨fun x hx => freshTail x hx (same ▸ Nat.ne_of_gt (above x hx)), tail⟩
      · rename_i differs
        refine List.pairwise_cons.2 ⟨fun x hx => ?_, ih risingTail tail freshTail⟩
        rcases mem_sparseInsert _ _ _ _ hx with rfl | hx
        · exact symm (fresh _ List.mem_cons_self (Ne.symm differs))
        · exact head x hx

end Sparse

/-! ### The tables of a bank (R136 to R140, R142) -/

/-- A Stream Table as the Store keeps it. -/
def streamsKept (m : List (Nat × StreamEntry)) : Prop :=
  sparseRising m = true ∧ (∀ e ∈ m, e.1 < 512 ∧ e.2.inRange) ∧
    m.Pairwise fun e f => ¬(e.2.matchPort = f.2.matchPort ∧ e.2.stream = f.2.stream)

/-- A Delivery Table as the Store keeps it. -/
def deliveriesKept (m : List (Nat × DeliveryEntry)) : Prop :=
  sparseRising m = true ∧ (∀ e ∈ m, e.1 < 512 ∧ e.2.inRange) ∧ m.Pairwise fun e f => e.2.stream ≠ f.2.stream

theorem Bank.kept_iff (b : Bank) :
    b.kept ↔ streamsKept b.streams ∧ deliveriesKept b.deliveries ∧ (∀ l, (b.levels.get l).inRange) ∧
      (∀ p, (b.ports.get p).egressLimit ≤ 1024) ∧ 1 ≤ b.part.peerTimeout ∧ b.part.peerTimeout ≤ 1000 := by
  simp only [kept, streamsKept, deliveriesKept, and_assoc]

theorem streamKeyFree_iff {m : List (Nat × StreamEntry)} {i : Nat} {e : StreamEntry} :
    streamKeyFree m i e = true ↔ ∀ x ∈ m, x.1 ≠ i → ¬(x.2.matchPort = e.matchPort ∧ x.2.stream = e.stream) := by
  simp [streamKeyFree, Classical.or_iff_not_imp_left]

theorem deliveryKeyFree_iff {m : List (Nat × DeliveryEntry)} {i : Nat} {e : DeliveryEntry} :
    deliveryKeyFree m i e = true ↔ ∀ x ∈ m, x.1 ≠ i → x.2.stream ≠ e.stream := by
  simp [deliveryKeyFree, Classical.or_iff_not_imp_left]

theorem streamsKept_insert {m : List (Nat × StreamEntry)} {i : Nat} {e : StreamEntry} (h : streamsKept m) (index : i < 512)
    (ranges : e.inRange) (free : streamKeyFree m i e = true) : streamsKept (sparseInsert i e m) := by
  obtain ⟨rising, entries, distinct⟩ := h
  refine ⟨sparseRising_insert i e m rising, fun x hx => ?_, ?_⟩
  · rcases mem_sparseInsert _ _ _ _ hx with rfl | hx
    · exact ⟨index, ranges⟩
    · exact entries x hx
  · refine pairwise_sparseInsert (fun h ⟨port, stream⟩ => h ⟨port.symm, stream.symm⟩) rising distinct ?_
    exact fun x hx other ⟨port, stream⟩ => streamKeyFree_iff.1 free x hx other ⟨port.symm, stream.symm⟩

theorem streamsKept_erase {m : List (Nat × StreamEntry)} (i : Nat) (h : streamsKept m) : streamsKept (sparseErase i m) := by
  obtain ⟨rising, entries, distinct⟩ := h
  exact ⟨sparseRising_erase i m rising, fun x hx => entries x (mem_sparseErase _ _ _ hx).1,
    distinct.sublist (sparseErase_sublist i m)⟩

theorem deliveriesKept_insert {m : List (Nat × DeliveryEntry)} {i : Nat} {e : DeliveryEntry} (h : deliveriesKept m)
    (index : i < 512) (ranges : e.inRange) (free : deliveryKeyFree m i e = true) : deliveriesKept (sparseInsert i e m) := by
  obtain ⟨rising, entries, distinct⟩ := h
  refine ⟨sparseRising_insert i e m rising, fun x hx => ?_, ?_⟩
  · rcases mem_sparseInsert _ _ _ _ hx with rfl | hx
    · exact ⟨index, ranges⟩
    · exact entries x hx
  · exact pairwise_sparseInsert Ne.symm rising distinct fun x hx other => (deliveryKeyFree_iff.1 free x hx other).symm

theorem deliveriesKept_erase {m : List (Nat × DeliveryEntry)} (i : Nat) (h : deliveriesKept m) :
    deliveriesKept (sparseErase i m) := by
  obtain ⟨rising, entries, distinct⟩ := h
  exact ⟨sparseRising_erase i m rising, fun x hx => entries x (mem_sparseErase _ _ _ hx).1,
    distinct.sublist (sparseErase_sublist i m)⟩

/-- A record replaced among four keeps what holds of each. -/
theorem forall_get_set {α : Type} {P : α → Prop} {q : Four α} {x : α} (i : Fin 4) (h : ∀ j, P (q.get j)) (hx : P x) :
    ∀ j, P ((q.set i x).get j) := by
  intro j
  rw [Four.get_set]
  split
  · exact hx
  · exact h j

/-! ### WRITE ENTRY keeps a bank (R141) -/

theorem Bank.writeStream_kept {b : Bank} {i : Nat} (content : List Byte) (h : b.kept) (index : i < 512) :
    (b.writeStream i content).2.kept := by
  obtain ⟨streams, rest⟩ := b.kept_iff.1 h
  unfold writeStream
  split
  · split
    · exact h
    · rename_i e read
      split
      · rename_i free
        exact (kept_iff _).2 ⟨streamsKept_insert streams index (StreamEntry.inRange_of_read read) free, rest⟩
      · exact h
  · exact (kept_iff _).2 ⟨streamsKept_erase i streams, rest⟩

theorem Bank.writeDelivery_kept {b : Bank} {i : Nat} (content : List Byte) (h : b.kept) (index : i < 512) :
    (b.writeDelivery i content).2.kept := by
  obtain ⟨streams, deliveries, rest⟩ := b.kept_iff.1 h
  unfold writeDelivery
  split
  · split
    · exact h
    · rename_i e read
      split
      · rename_i free
        exact (kept_iff _).2
          ⟨streams, deliveriesKept_insert deliveries index (DeliveryEntry.inRange_of_read read) free, rest⟩
      · exact h
  · exact (kept_iff _).2 ⟨streams, deliveriesKept_erase i deliveries, rest⟩

theorem Bank.write_kept {b : Bank} {t : Table} {i : Nat} (content : List Byte) (h : b.kept) (index : i < t.size) :
    (b.write t i content).2.kept := by
  obtain ⟨streams, deliveries, levels, ports, part⟩ := b.kept_iff.1 h
  cases t with
  | streams => exact b.writeStream_kept content h index
  | deliveries => exact b.writeDelivery_kept content h index
  | levels =>
    unfold write
    dsimp only
    split
    · exact h
    · rename_i e read
      exact (kept_iff _).2 ⟨streams, deliveries, forall_get_set _ levels (LevelEntry.inRange_of_read read), ports, part⟩
  | ports =>
    unfold write
    dsimp only
    split
    · exact h
    · rename_i e read
      exact (kept_iff _).2
        ⟨streams, deliveries, levels,
          forall_get_set (P := fun e : PortSettings => e.egressLimit ≤ 1024) _ ports
            (PortSettings.egressLimit_of_read read),
          part⟩
  | part =>
    unfold write
    dsimp only
    split
    · exact h
    · rename_i e read
      exact (kept_iff _).2 ⟨streams, deliveries, levels, ports, PartSettings.peerTimeout_of_read read⟩

/-! ### CLEAR SHADOW keeps a bank (R144) -/

theorem Bank.clearTable_kept {b c : Bank} {code : Byte} (h : b.kept) (cleared : b.clearTable code = some c) : c.kept := by
  obtain ⟨streams, deliveries, levels, ports, part⟩ := b.kept_iff.1 h
  obtain ⟨streams', deliveries', levels', ports', part'⟩ := (kept_iff _).1 Bank.default_kept
  unfold clearTable at cleared
  split at cleared
  · injection cleared with cleared
    exact cleared ▸ Bank.default_kept
  · split at cleared
    · cases cleared
    all_goals
      injection cleared with cleared
      subst cleared
    · exact (kept_iff _).2 ⟨streams', deliveries, levels, ports, part⟩
    · exact (kept_iff _).2 ⟨streams, deliveries', levels, ports, part⟩
    · exact (kept_iff _).2 ⟨streams, deliveries, levels', ports, part⟩
    · exact (kept_iff _).2 ⟨streams, deliveries, levels, ports', part⟩
    · exact (kept_iff _).2 ⟨streams, deliveries, levels, ports, part'⟩

/-! ### The Store is kept by its own commands (R136 to R148) -/

namespace ConfigStore

variable {c : ConfigStore}

theorem kept_setShadow {b : Bank} (h : c.kept) (hb : b.kept) : { c with shadow := b }.kept := by
  obtain ⟨active, -, allotments, generation⟩ := h
  exact ⟨active, hb, allotments, generation⟩

theorem write_kept (code : Byte) (i : Nat) (content : List Byte) (h : c.kept) : (c.write code i content).2.kept := by
  obtain ⟨-, shadow, -⟩ := id h
  unfold write
  split
  · exact h
  · split
    · exact h
    · split
      · rename_i index
        exact kept_setShadow h (Bank.write_kept content shadow index)
      · exact h

theorem clear_kept (code : Byte) (h : c.kept) : (c.clear code).2.kept := by
  obtain ⟨-, shadow, -⟩ := id h
  unfold clear
  split
  · exact h
  · split
    · exact h
    · rename_i cleared
      exact kept_setShadow h (Bank.clearTable_kept shadow cleared)

/-- The generation after a COMMIT is never 65535 (R146, R147). -/
theorem nextGeneration_ne (g : Half) : nextGeneration g ≠ 65535#16 := by
  unfold nextGeneration
  split
  · decide
  · rename_i other
    bv_omega

theorem commit_kept (expected : Half) (now : Time) (h : c.kept) : (c.commit expected now).2.kept := by
  obtain ⟨active, shadow, -⟩ := id h
  unfold commit
  split
  · exact h
  · split
    · exact h
    · split
      · exact h
      · rename_i allotments
        exact ⟨shadow, active, Nat.le_of_not_lt allotments, nextGeneration_ne _⟩

theorem copyDone_kept (h : c.kept) : c.copyDone.kept := by
  obtain ⟨active, -, allotments, generation⟩ := h
  exact ⟨active, active, allotments, generation⟩

end ConfigStore
end Sys2Proof.Machine
end

section
/-! SUPPORT. Every step keeps the Configuration Store (R136 to R147). Its own commands are the Store's; of all other
operations only a cold start and a FULL restart reach it, and they leave it at its defaults (R154). -/

namespace Sys2Proof.Machine

namespace State

variable {s : State}

/-! ### Restarts and deferred commands (R154, R169, R176) -/

/-- A TRAFFIC restart keeps the configuration (R176). -/
@[simp] theorem restartTraffic_config (s : State) : s.restartTraffic.config = s.config := by
  simp [restartTraffic_eq, offerRestart]

theorem applyCommand_keepsConfig (c : DeferredCommand) (h : s.config.kept) : (s.applyCommand c).config.kept := by
  cases c with
  | linkControl a => simpa [applyCommand] using h
  | restart k =>
    cases k with
    | traffic => simpa [applyCommand, restart] using h
    | full => simpa [applyCommand, restart, restartFull] using ConfigStore.cold_kept

theorem replyLeft_keepsConfig (left : AwaitedReply) (h : s.config.kept) : (s.replyLeft left).config.kept := by
  unfold replyLeft
  split
  · exact h
  · split
    · exact applyCommand_keepsConfig _ h
    · exact h

theorem releaseIfDown_keepsConfig (before : State) (h : s.config.kept) : (releaseIfDown before s).config.kept := by
  unfold releaseIfDown commandOnDown
  split
  · split
    · exact h
    · exact h
    · exact applyCommand_keepsConfig _ h
  · exact h

theorem deferCommand_keepsConfig (r : Request) (c : Option DeferredCommand) (h : s.config.kept) :
    (s.deferCommand r c).config.kept := by
  cases c with
  | none => simpa [deferCommand] using h
  | some c =>
    have replied : (s.reply r .ok []).1.config.kept := by simpa using h
    simp only [deferCommand]
    cases hr : (s.reply r .ok []).2 with
    | none => exact applyCommand_keepsConfig c replied
    | some awaited => exact replied

/-! ### The execution of requests (R158 to R171) -/

/-! What a command that is none of the Store's carries out leaves the configuration. -/

theorem carryReadEntries_config (args : List Byte) : (s.carryReadEntries args).state.config = s.config := by
  unfold carryReadEntries readEntriesOf
  dsimp only
  repeat' split
  all_goals rfl

theorem carryReadCounters_config (args : List Byte) : (s.carryReadCounters args).state.config = s.config := by
  unfold carryReadCounters
  repeat' split
  all_goals rfl

theorem carryReadEvents_config (args : List Byte) : (s.carryReadEvents args).state.config = s.config := by
  unfold carryReadEvents
  dsimp only
  split <;> rfl

theorem carryAckEvents_config (args : List Byte) : (s.carryAckEvents args).state.config = s.config := by
  unfold carryAckEvents
  dsimp only
  split <;> rfl

theorem carryFlushLevel_config (args : List Byte) : (s.carryFlushLevel args).state.config = s.config := by
  unfold carryFlushLevel
  split
  · rfl
  · simp

theorem carryOut_keepsConfig (r : Request) (h : s.config.kept) : (s.carryOut r).config.kept := by
  have sent (a : Answer) (ha : a.state.config.kept) : (a.send r).config.kept := by simpa [Answer.send] using ha
  have unmoved (a : Answer) (ha : a.state.config = s.config) : (a.send r).config.kept := sent a (ha ▸ h)
  unfold carryOut
  split
  · exact unmoved _ rfl
  · exact unmoved _ (carryReadEntries_config _)
  · exact sent _ (ConfigStore.write_kept _ _ _ h)
  · exact sent _ (ConfigStore.clear_kept _ h)
  · exact sent _ (ConfigStore.commit_kept _ _ h)
  · exact unmoved _ (carryReadCounters_config _)
  · exact unmoved _ (carryReadEvents_config _)
  · exact unmoved _ (carryAckEvents_config _)
  · exact unmoved _ (carryFlushLevel_config _)
  · exact deferCommand_keepsConfig r _ h
  · exact deferCommand_keepsConfig r _ h

theorem forward_config (r : Request) (p : Port) : (s.forward r p).config = s.config := by
  have sent : (s.sendTrunk .forwardedRequest (r.relayed (s.newPeer r p).localTag)).1.config = s.config := by simp
  unfold forward
  split
  · simp
  · split
    · simp
    · dsimp only
      split <;> rename_i q <;> rw [q] at sent <;> simpa using sent

theorem executeLocal_keepsConfig (r : Request) (h : s.config.kept) : (s.executeLocal r).config.kept := by
  unfold executeLocal
  split
  · simpa using h
  · split
    · simpa using h
    · exact carryOut_keepsConfig r h

theorem executeHead_keepsConfig (r : Request) (h : s.config.kept) : (s.executeHead r).config.kept := by
  have taken : (s.mapAgent fun a => { a with requests := a.requests.tail }).config.kept := h
  unfold executeHead executeRequest
  split
  · split
    · simpa using h
    · split
      · simpa using h
      · exact executeLocal_keepsConfig r taken
  · split
    · rw [forward_config]
      exact taken
    · exact executeLocal_keepsConfig r taken

/-! ### The events of the lines, the ports and the timers -/

theorem lineSymbol_keepsConfig (how : ReceptionEnd) (h : s.config.kept) : (s.lineSymbol how).config.kept := by
  have opened (t : State) (ht : t.config.kept) : (t.openReception how).config.kept := by cases how <;> exact ht
  unfold lineSymbol
  split
  · exact opened s h
  · refine opened _ (releaseIfDown_keepsConfig s ?_)
    unfold reportSegment
    split <;> simpa using h

theorem signalLost_keepsConfig (h : s.config.kept) : s.signalLost.config.kept := by
  unfold signalLost
  dsimp only
  split
  · exact h
  · exact releaseIfDown_keepsConfig _ (by simpa [setSignal] using h)

@[simp] theorem signalBack_config : s.signalBack.config = s.config := by
  unfold signalBack
  dsimp only
  split
  · simp [setSignal]
  · rfl

@[simp] theorem setSpr_config (p : Port) (r : Spr) : (s.setSpr p r).config = s.config := rfl

@[simp] theorem takeRise_config (p : Port) : (s.takeRise p).config = s.config := by
  have begun : (s.beginFrame p).config = s.config := by
    unfold beginFrame
    split <;> simp
  unfold takeRise
  split
  · exact begun
  · exact begun
  · rfl
  · rfl

@[simp] theorem takeByte_config (p : Port) (b : Byte) : (s.takeByte p b).config = s.config := by
  have payload (r : Spr) (n : Nat) : (s.payloadByte p r n b).config = s.config := by
    unfold payloadByte dropNoBuffer
    repeat' split
    all_goals simp
  unfold takeByte
  dsimp only
  repeat' split
  all_goals simp [payload]

@[simp] theorem giveBackFrame_config (r : Spr) (n : Nat) : (s.giveBackFrame r n).config = s.config := rfl

theorem userFrame_config (p : Port) (r : Spr) (n : Nat) : (s.userFrame p r n).config = s.config := by
  have treated (t : State) (c : Classified) : (t.treatFrame p r n c).config = t.config := by
    unfold treatFrame
    repeat' split
    all_goals simp
  unfold userFrame
  rw [treated]
  split <;> simp

theorem managementFrame_config (p : Port) (r : Spr) (n : Nat) : (s.managementFrame p r n).config = s.config := by
  unfold managementFrame
  split <;> simp

@[simp] theorem takeFall_config (p : Port) : (s.takeFall p).config = s.config := by
  unfold takeFall
  dsimp only
  split
  · rfl
  · rfl
  · simp
  · unfold endFrame
    split
    · simp
    · simp [managementFrame_config]
    · simp [userFrame_config]

theorem transmissionDone_keepsConfig (h : s.config.kept) : s.transmissionDone.config.kept := by
  unfold transmissionDone
  split
  · exact h
  · split
    · simpa using h
    · simpa using replyLeft_keepsConfig _ (by simpa using h)

@[simp] theorem suspensionExpired_config (l : Level) : (s.suspensionExpired l).config = s.config := by
  unfold suspensionExpired
  repeat' split
  all_goals simp [protectAt]

@[simp] theorem ageAt_config (l : Level) : (s.ageAt l).config = s.config := by simp [ageAt]

@[simp] theorem peerExpired_config (tag : Byte) : (s.peerExpired tag).config = s.config := by
  unfold peerExpired
  repeat' split
  all_goals simp [peerTimedOut]

@[simp] theorem copyBackDone_config : s.copyBackDone.config = s.config.copyDone := by simp [copyBackDone]

theorem egressCompleted_keepsConfig (p : Port) (h : s.config.kept) : (s.egressCompleted p).config.kept := by
  unfold egressCompleted
  split
  · exact replyLeft_keepsConfig _ (by simpa using h)
  · exact h
  · exact h
  · exact h

/-- An event that is taken when a condition holds. -/
theorem ite_keepsConfig {c : Prop} [Decidable c] {t u : State} (ht : t.config.kept) (hu : u.config.kept) :
    (if c then t else u).config.kept := by
  split
  · exact ht
  · exact hu

theorem eventRunning_keepsConfig (c : Instr) (h : s.config.kept) : (eventRunning c s).config.kept := by
  cases c with
  | lineSignalLoss => exact ite_keepsConfig (signalLost_keepsConfig h) h
  | lineSignalReturn => exact ite_keepsConfig h (by simpa using h)
  | segmentReceptionEnd how => exact lineSymbol_keepsConfig how h
  | startDelimiterArrival => exact lineSymbol_keepsConfig _ h
  | frameValidRise p => exact ite_keepsConfig h (by simpa [setFrameValid] using h)
  | stationByteReceived p b => exact ite_keepsConfig (by simpa using h) h
  | frameValidFall p => exact ite_keepsConfig (by simpa [setFrameValid] using h) h
  | transmissionCompletion => exact transmissionDone_keepsConfig h
  | holdOffExpiry => exact ite_keepsConfig (by simpa using h) h
  | helloDeadlineExpiry => exact ite_keepsConfig (by simpa [nextHello] using h) h
  | silenceDeadlineExpiry => exact ite_keepsConfig (releaseIfDown_keepsConfig s (by simpa using h)) h
  | keepaliveDeadlineExpiry => exact ite_keepsConfig (by simpa [keepalive] using h) h
  | advanceDeadlineExpiry l => exact ite_keepsConfig (by simpa [advanceAged] using h) h
  | suspensionDeadlineExpiry l => simpa [eventRunning] using h
  | ageDeadlineExpiry l => exact ite_keepsConfig (by simpa using h) h
  | peerDeadlineExpiry tag => simpa [eventRunning] using h
  | copyBackCompletion => exact ite_keepsConfig (by simpa using ConfigStore.copyDone_kept h) h
  | egressCompletion p => exact egressCompleted_keepsConfig p h
  | _ => exact h

/-- The Configuration Store is kept by everything the part can do. -/
theorem configKept_keptBySteps : KeptBySteps fun s => s.config.kept where
  queue _ _ _ h := h
  resetAsserted _ _ _ h := h
  coldStart _ _ := by simpa [State.coldStart] using ConfigStore.cold_kept
  supplyLost _ h := h
  execution _ r h _ := executeHead_keepsConfig r h
  held c _ h := by cases c <;> exact h
  event c _ h := eventRunning_keepsConfig c h
  tick _ h := h

end State

end Sys2Proof.Machine

/-- Settles O52, by the induction over every kind of step. -/
theorem everyStepKeepsTheConfiguration : Obligations.EveryStepKeepsTheConfiguration :=
  fun _ _ h e => Sys2Proof.Machine.State.configKept_keptBySteps.step h e
end

section
/-! COPY_BACK_COMPLETION: the banks are equal again, and COMMIT_DONE is offered (R148, R180). -/

namespace Sys2Proof.Machine

/-- A loss record counts one more refusal, up to 65535 (R180). -/
theorem EventRecord.addLoss_of_loss {r : EventRecord} (loss : r.kind = .eventsLost) :
    r.addLoss = { r with detail := if r.detail = 65535#16 then r.detail else r.detail + 1#16 } := by
  unfold addLoss
  by_cases full : r.detail = 65535#16
  · rw [if_neg fun h => h.2 full, if_pos full]
  · rw [if_pos ⟨loss, full⟩, if_neg full]

theorem EventRecord.addLoss_of_other {r : EventRecord} (other : r.kind ≠ .eventsLost) : r.addLoss = r :=
  if_neg fun h => other h.1

theorem EventRecord.map_addLoss_of_other {rs : List EventRecord} (others : ∀ x ∈ rs, x.kind ≠ .eventsLost) :
    rs.map EventRecord.addLoss = rs := by
  rw [List.map_congr_left fun x hx => addLoss_of_other (others x hx), List.map_id']

theorem EventQueue.holdsLoss_iff {q : EventQueue} : q.holdsLoss = true ↔ ∃ r ∈ q.records, r.kind = .eventsLost := by
  simp [holdsLoss]

namespace State

variable (s : State)

/-! ### A record offered to a full queue (R180) -/

/-- A refusal with no loss record held takes a place of its own. -/
theorem offerEvent_newLoss (k : EventKind) (b : Subject) (n : Option Half) (d : Half) (full : 31 ≤ s.events.records.length)
    (none : ∀ x ∈ s.events.records, x.kind ≠ .eventsLost) :
    (s.offerEvent k b n d).events = s.events.accept (s.makeRecord .eventsLost .none Option.none 1#16) := by
  have noLoss : ¬s.events.holdsLoss = true := fun h =>
    let ⟨x, hx, loss⟩ := EventQueue.holdsLoss_iff.1 h
    none x hx loss
  simp [offerEvent, acceptRecord, Config.eventPlaces, Nat.not_lt.2 full, noLoss]

/-- A further refusal is counted in the loss record that is held, and that is all. -/
theorem offerEvent_countedLoss (k : EventKind) (b : Subject) (n : Option Half) (d : Half)
    (full : 31 ≤ s.events.records.length) (held : ∃ x ∈ s.events.records, x.kind = .eventsLost) :
    s.offerEvent k b n d = s.mapEvents fun q => { q with records := q.records.map (·.addLoss) } := by
  simp [offerEvent, Config.eventPlaces, Nat.not_lt.2 full, EventQueue.holdsLoss_iff.2 held]

theorem mapEvents_onlyChanges (f : EventQueue → EventQueue) : onlyChanges [.events] s (s.mapEvents f) := by
  intro b hb
  cases b <;> first | rfl | exact absurd (by decide) hb

theorem mapConfig_onlyChanges (f : ConfigStore → ConfigStore) : onlyChanges [.config] s (s.mapConfig f) := by
  intro b hb
  cases b <;> first | rfl | exact absurd (by decide) hb

theorem offerEvent_onlyChanges (k : EventKind) (b : Subject) (n : Option Half) (d : Half) :
    onlyChanges [.events, .rxPool, .egress, .agent, .counters] s (s.offerEvent k b n d) := by
  intro c hc
  cases c <;> first | exact absurd (by decide) hc | simp [Block.same]

/-- With notices off the Event Queue alone moves (R183). -/
theorem offerEvent_onlyChanges_quiet (k : EventKind) (b : Subject) (n : Option Half) (d : Half) (quiet : s.noNotices) :
    onlyChanges [.events] s (s.offerEvent k b n d) := by
  obtain ⟨agent, counters, rxPool, egress⟩ := s.offerEvent_quiet k b n d quiet
  intro c hc
  cases c <;> first | exact absurd (by decide) hc | simp [Block.same, agent, counters, rxPool, egress]

end State
end Sys2Proof.Machine

open Sys2Proof.Machine in
/-- Settles O35: the Store's part is `ConfigStore.copyDone`, and the offer meets one of the three rows of R180. -/
theorem copyBackEndsAndIsRecorded : Obligations.CopyBackEndsAndIsRecorded := by
  intro s began rest running
  have copied := s.mapConfig_onlyChanges (·.copyDone)
  refine ⟨s.copyBackDone, by simp [Sys2Proof.Laws.exec_copyBackCompletion s rest, running], by simp [ConfigStore.copyDone],
    ?_, ?_, ?_, ?_, ?_⟩
  · exact (s.mapConfig (·.copyDone)).recordAccepted_offerEvent _ _ _ _
  · intro full none
    have refused : s.copyBackDone.events = _ := (s.mapConfig (·.copyDone)).offerEvent_newLoss _ _ _ _ full none
    rw [refused]
    exact ⟨rfl, rfl⟩
  · intro older loss newer full split isLoss others
    have counted : s.copyBackDone = _ := (s.mapConfig (·.copyDone)).offerEvent_countedLoss _ _ _ _ full
      ⟨loss, by simp [split], isLoss⟩
    obtain ⟨olderKept, newerKept⟩ := List.forall_mem_append.1 others
    rw [counted]
    refine ⟨rfl, ?_, onlyChanges_chain copied (State.mapEvents_onlyChanges _ _) (by decide)⟩
    simp [split, EventRecord.addLoss_of_loss isLoss, EventRecord.map_addLoss_of_other olderKept,
      EventRecord.map_addLoss_of_other newerKept]
  · intro quiet
    exact onlyChanges_chain copied ((s.mapConfig (·.copyDone)).offerEvent_onlyChanges_quiet _ _ _ _ quiet) (by decide)
  · exact onlyChanges_chain copied ((s.mapConfig (·.copyDone)).offerEvent_onlyChanges _ _ _ _) (by decide)
end

section
/-! SUPPORT. The execution of a request-local of a station port: MALFORMED where its arguments end too soon, else what its
command carries out, then the reply (R158, R159). -/

namespace Sys2Proof.Machine

/-- What a request with some bytes of arguments required is answered: MALFORMED where they end sooner, else what its command
gives (R158). -/
def Answer.checked (a : Answer) (s : State) (r : Request) (required : Nat) : Answer :=
  if r.args.length < required then Answer.refusal .malformed s else a

theorem Answer.checked_short {a : Answer} {s : State} {r : Request} {required : Nat} (short : r.args.length < required) :
    a.checked s r required = Answer.refusal .malformed s := if_pos short

theorem Answer.checked_enough {a : Answer} {s : State} {r : Request} {required : Nat} (enough : required ≤ r.args.length) :
    a.checked s r required = a := if_neg (Nat.not_lt.2 enough)

/-- What holds of the refusal and of the command's own answer holds of the one that is given. -/
theorem Answer.checked_of {P : Answer → Prop} {a : Answer} {s : State} {r : Request} {required : Nat}
    (refused : P (Answer.refusal .malformed s)) (carried : P a) : P (a.checked s r required) := by
  unfold checked
  split
  · exact refused
  · exact carried

namespace State

variable {s : State} {r : Request} {p : Port}

theorem executeHead_local {code : Byte} {required : Nat} {a : Answer} (h : s.hasAtHead r p code)
    (arguments : requiredArgs code r.args = some required) (carried : s.withoutHead.carryOut r = a.send r) :
    s.executeHead r = (a.checked s.withoutHead r required).send r := by
  obtain ⟨-, -, -, station, isLocal, command⟩ := h
  have rows : s.executeHead r = s.withoutHead.executeLocal r := by
    rw [show s.executeHead r = s.withoutHead.executeRequest r from rfl]
    simp [executeRequest, station, isLocal]
  rw [rows, executeLocal, command, arguments]
  dsimp only
  split
  · rename_i short
    rw [Answer.checked_short short]
    rfl
  · rename_i enough
    rw [Answer.checked_enough (Nat.not_lt.1 enough), carried]

/-- A reply over a state that its command left leaves the configuration, and the blocks it touches are the reply's (R159). -/
theorem send_replied {a : Answer} {changed : List Block} (station : r.source = .station p)
    (within : onlyChanges changed s.withoutHead a.state)
    (apart : ∀ b ∈ [Block.rxPool, .egress, .agent, .counters], b ∉ changed) :
    replied s s.counters s.agent.noticeLatch (a.send r) r p a.status a.results ∧
      onlyChanges (changed ++ [.rxPool, .egress, .agent, .counters]) s (a.send r) ∧ (a.send r).config = a.state.config := by
  have rxPool : a.state.rxPool = s.rxPool := within .rxPool (apart _ (by decide))
  have egress : a.state.egress = s.egress := within .egress (apart _ (by decide))
  have agent : a.state.agent = s.withoutHead.agent := within .agent (apart _ (by decide))
  have counters : a.state.counters = s.counters := within .counters (apart _ (by decide))
  obtain ⟨sent, only⟩ := s.reply_replied a.state r p s.agent.noticeLatch a.status a.results station rxPool egress agent
  refine ⟨counters ▸ sent, ?_, only .config (by decide)⟩
  refine onlyChanges_trans (onlyChanges_mono onlyChanges_withoutHead ?_) (onlyChanges_trans (onlyChanges_mono within ?_)
    (onlyChanges_mono only ?_))
  · simp
  · simp
  · simp

/-- A command of the Agent with its request at the head of the queue, executed and answered (R158, R159, log 5). -/
theorem exec_answered {i : Instr} {code : Byte} {required : Nat} {a : Answer} {changed : List Block}
    (h : s.hasAtHead r p code) (executes : exec i s = .next (s.executeIf (Request.isLocal code.toNat)))
    (arguments : requiredArgs code r.args = some required) (carried : s.withoutHead.carryOut r = a.send r)
    (within : onlyChanges changed s.withoutHead a.state)
    (apart : ∀ b ∈ [Block.rxPool, .egress, .agent, .counters], b ∉ changed) :
    ∃ t A, A = a.checked s.withoutHead r required ∧ exec i s = .next t ∧ t.config = A.state.config ∧
      replied s s.counters s.agent.noticeLatch t r p A.status A.results ∧
      onlyChanges (changed ++ [.rxPool, .egress, .agent, .counters]) s t := by
  obtain ⟨-, ready, head, station, isLocal, command⟩ := id h
  have named : Request.isLocal code.toNat r = true := by simp [Request.isLocal, isLocal, command]
  have checked : onlyChanges changed s.withoutHead (a.checked s.withoutHead r required).state :=
    Answer.checked_of (P := fun A => onlyChanges changed s.withoutHead A.state) (onlyChanges_refl _ _) within
  obtain ⟨sent, only, config⟩ := send_replied station checked apart
  refine ⟨_, _, rfl, ?_, config, sent, only⟩
  rw [executes, s.executeIf_head r _ ready head named, executeHead_local h arguments carried]

end State
end Sys2Proof.Machine
end

section
/-! COMMIT: its checks in order and the swap (R145, R146, R163). -/

namespace Sys2Proof.Machine

namespace ConfigStore

variable {c : ConfigStore} {expected : Half} {now : Time}

theorem commit_busy (running : c.copyBack.isSome = true) : c.commit expected now = (.busy, c) := if_pos running

theorem commit_stale (idle : c.copyBack = none) (asked : expected ≠ 65535#16) (other : expected ≠ c.generation) :
    c.commit expected now = (.generation, c) := by
  simp [commit, idle, asked, other]

theorem commit_checked (idle : c.copyBack = none) (current : expected = 65535#16 ∨ expected = c.generation) :
    c.commit expected now = if 1008 < c.shadow.allotmentSum then (.invalid, c) else (.ok, c.swap now) := by
  have passes : ¬(expected ≠ 65535#16 ∧ expected ≠ c.generation) := fun h => current.elim h.1 h.2
  rw [commit, if_neg (by simp [idle]), if_neg passes]
  rfl

/-- A COMMIT that is refused leaves the Store as it was. -/
theorem commit_refused (refused : (c.commit expected now).1 ≠ .ok) : (c.commit expected now).2 = c := by
  revert refused
  unfold commit
  repeat' split
  all_goals simp

end ConfigStore

theorem Bank.allotmentSum_eq (b : Bank) :
    b.allotmentSum = (b.levels.get 0).rxAllotment + (b.levels.get 1).rxAllotment + (b.levels.get 2).rxAllotment +
      (b.levels.get 3).rxAllotment := by
  simp [allotmentSum, fourIndices, Nat.add_assoc]

end Sys2Proof.Machine

open Sys2Proof.Machine in
/-- Settles O42, by the first check that fails; the Store's part is `ConfigStore.commit`. -/
theorem commitSwapsTheBanks : Obligations.CommitSwapsTheBanks := by
  rintro s r p a b c d h rfl rfl rfl rfl
  obtain ⟨running, -, -, -, -, command⟩ := id h
  obtain ⟨t, A, hA, executed, config, answer, only⟩ :=
    State.exec_answered (required := 2) (a := s.withoutHead.carryCommit r.args) (changed := [.config]) h
      (Sys2Proof.Laws.exec_commit s running) rfl (by simp [State.carryOut, command]) (State.mapConfig_onlyChanges _ _)
      (by decide)
  have sum := s.config.shadow.allotmentSum_eq
  refine ⟨t, A.status, A.results, executed, answer, only, ?_, ?_, ?_⟩
  · rw [config, hA]
    refine Answer.checked_of (P := fun A => A.status ≠ .ok → A.state.config = s.config) (fun _ => rfl) ?_
    exact ConfigStore.commit_refused
  · intro short
    simp [hA, Answer.checked_short short, Answer.refusal]
  · intro enough
    rw [Answer.checked_enough enough] at hA
    obtain ⟨w, hw⟩ : ∃ w, w = s.config.commit (halfAt r.args 0) s.now := ⟨_, rfl⟩
    have status : A.status = w.1 := by rw [hA, hw]; rfl
    have results : A.results = if w.1 = .ok ∨ w.1 = .generation then halfBytes w.2.generation else [] := by
      rw [hA, hw]
      rfl
    have store : t.config = w.2 := by rw [config, hA, hw]; rfl
    rw [status, results, store]
    refine ⟨fun busy => ?_, fun idle asked other => ?_, fun idle current => ⟨fun excess => ?_, fun fits => ?_⟩⟩
    · rw [hw, ConfigStore.commit_busy busy]
      exact ⟨rfl, rfl⟩
    · rw [hw, ConfigStore.commit_stale idle asked other]
      exact ⟨rfl, rfl⟩
    · rw [hw, ConfigStore.commit_checked idle current, if_pos (sum ▸ excess)]
      exact ⟨rfl, rfl⟩
    · rw [hw, ConfigStore.commit_checked idle current, if_neg (sum ▸ Nat.not_lt.2 fits)]
      exact ⟨rfl, rfl, rfl⟩
end

section
/-! READ ENTRIES: the layout of each entry and the entries returned (R142, R162, R191, R192). -/

namespace Sys2Proof.Machine

/-! ### The bytes of an entry (R192) -/

theorem flagBits4 (a b c : Bool) :
    flagBit true 7 + flagBit a 6 + flagBit b 5 + flagBit c 4 =
      0x80#8 ||| (if a then 0x40#8 else 0#8) ||| (if b then 0x20#8 else 0#8) ||| (if c then 0x10#8 else 0#8) := by
  revert a b c
  decide

theorem flagBits_valid (a : Bool) : flagBit true 7 + flagBit a 6 = 0x80#8 ||| (if a then 0x40#8 else 0#8) := by
  revert a
  decide

theorem flagBits2 (a b : Bool) :
    flagBit a 7 + flagBit b 6 = (if a then 0x80#8 else 0#8) ||| (if b then 0x40#8 else 0#8) := by
  revert a b
  decide

theorem flagBits3 (a b c : Bool) :
    flagBit a 7 + flagBit b 6 + flagBit c 5 =
      (if a then 0x80#8 else 0#8) ||| (if b then 0x40#8 else 0#8) ||| (if c then 0x20#8 else 0#8) := by
  revert a b c
  decide

theorem maskByte_eq (q : Four Bool) :
    maskByte q =
      (if q.get 0 then 1#8 else 0#8) ||| (if q.get 1 then 2#8 else 0#8) ||| (if q.get 2 then 4#8 else 0#8) |||
        (if q.get 3 then 8#8 else 0#8) := by
  obtain ⟨a, b, c, d⟩ := q
  revert a b c d
  decide

theorem Action.isDrop_iff (a : Action) : a.isDrop = true ↔ a = .drop := by cases a <;> simp [isDrop]

theorem ofNat_val {i : Nat} {l : Fin 4} (h : l.val = i) : Fin.ofNat 4 i = l := by
  subst h
  exact Fin.ofNat_val_eq_self l

/-- Every entry is returned in its encoding, an invalid one as zeros (R142, R192). -/
theorem Bank.entryBytes_laidOut (b : Bank) (t : Table) (i : Nat) : b.laidOut t i (b.entryBytes t i) := by
  cases t with
  | streams =>
    refine ⟨fun none => ?_, fun e found => ?_⟩
    · simp [entryBytes, none, streamBytes, zeroBytes]
    · simp only [entryBytes, found, streamBytes, flagBits4, Action.isDrop_iff]
      cases e.matchPort <;> rfl
  | deliveries =>
    refine ⟨fun none => ?_, fun e found => ?_⟩
    · simp [entryBytes, none, deliveryBytes, zeroBytes]
    · simp only [entryBytes, found, deliveryBytes, flagBits_valid, maskByte_eq]
  | levels =>
    rintro l e index rfl
    simp only [entryBytes, ofNat_val index, levelBytes, flagBits2, natHalf]
  | ports =>
    rintro p e index rfl
    simp only [entryBytes, ofNat_val index, portBytes, flagBits3, natHalf, Action.isDrop_iff]
  | part =>
    rintro e rfl
    simp only [entryBytes, partBytes, flagBits2, maskByte_eq, natHalf]
    cases b.part.noticeThreshold <;> rfl

/-! ### The checks and the results (R162, R191) -/

theorem ConfigStore.bankOf_none {c : ConfigStore} {code : Byte} (unknown : 2 ≤ code.toNat) : c.bankOf code = none := by
  unfold bankOf
  split
  · omega
  · omega
  · rfl

namespace State

variable {s : State} {args : List Byte} {table : Table} {bank : Bank}

theorem carryReadEntries_unknown (unknown : tableOfCode (byteAt args 0) = none ∨ 2 ≤ (byteAt args 1).toNat) :
    s.carryReadEntries args = Answer.refusal .range s := by
  unfold carryReadEntries
  rcases unknown with noTable | noBank
  · simp [noTable]
  · simp [ConfigStore.bankOf_none noBank]

theorem carryReadEntries_busy (known : tableOfCode (byteAt args 0) = some table) (shadow : byteAt args 1 = 1#8)
    (running : s.config.copyBack.isSome = true) : s.carryReadEntries args = Answer.refusal .busy s := by
  simp [carryReadEntries, known, shadow, running, ConfigStore.bankOf]

theorem carryReadEntries_bank (known : tableOfCode (byteAt args 0) = some table)
    (named : (byteAt args 1 = 0#8 ∧ bank = s.config.active) ∨
      (byteAt args 1 = 1#8 ∧ s.config.copyBack = none ∧ bank = s.config.shadow)) :
    s.carryReadEntries args = readEntriesOf bank table args s := by
  rcases named with ⟨active, rfl⟩ | ⟨shadow, idle, rfl⟩
  · simp [carryReadEntries, known, active, ConfigStore.bankOf]
  · simp [carryReadEntries, known, shadow, idle, ConfigStore.bankOf]

theorem carryReadEntries_state (args : List Byte) : (s.carryReadEntries args).state = s := by
  unfold carryReadEntries readEntriesOf
  dsimp only
  repeat' split
  all_goals rfl

/-- A refused READ ENTRIES returns nothing. -/
theorem carryReadEntries_results (refused : (s.carryReadEntries args).status ≠ .ok) :
    (s.carryReadEntries args).results = [] := by
  revert refused
  unfold carryReadEntries readEntriesOf
  dsimp only
  repeat' split
  all_goals simp [Answer.refusal]

end State
end Sys2Proof.Machine

open Sys2Proof.Machine in
/-- Settles O40, by the first check that fails; the layout is that of `Bank.entryBytes`. -/
theorem readEntriesReturnsTheBank : Obligations.ReadEntriesReturnsTheBank := by
  refine ⟨Bank.entryBytes_laidOut, fun s r p h => ?_⟩
  obtain ⟨running, -, -, -, -, command⟩ := id h
  obtain ⟨t, A, hA, executed, -, answer, only⟩ :=
    State.exec_answered (required := 5) (a := s.withoutHead.carryReadEntries r.args) (changed := []) h
      (Sys2Proof.Laws.exec_readEntries s running) rfl (by simp [State.carryOut, command])
      (by rw [State.carryReadEntries_state]; exact onlyChanges_refl _ _) (by simp)
  refine ⟨t, A.status, A.results, executed, answer, only, ?_, fun short => ?_, fun enough => ?_⟩
  · rw [hA]
    exact Answer.checked_of (P := fun A => A.status ≠ .ok → A.results = []) (fun _ => rfl) State.carryReadEntries_results
  · rw [hA, Answer.checked_short short]
    rfl
  · rw [Answer.checked_enough enough] at hA
    refine ⟨fun unknown => ?_, fun table known => ⟨fun shadow running => ?_, fun bank named => ?_⟩⟩
    · rw [hA, State.carryReadEntries_unknown (s := s.withoutHead) unknown]
      rfl
    · rw [hA, State.carryReadEntries_busy (s := s.withoutHead) known shadow running]
      rfl
    · rw [hA, State.carryReadEntries_bank (s := s.withoutHead) known named]
      refine ⟨fun outside => ?_, ?_⟩
      · rw [readEntriesOf, if_neg (by omega)]
        rfl
      · rintro k rfl least most inside
        rw [readEntriesOf, if_pos ⟨least, most, inside⟩]
        exact ⟨rfl, by simp [readIndices, natByte]⟩
end

section
/-! WRITE ENTRY of every table and CLEAR SHADOW: the checks in order and the Shadow bank they leave (R136 to R144, R163,
R191, R192). -/

namespace Sys2Proof.Machine

/-! ### WRITE ENTRY on a bank, table by table (R141, R142) -/

namespace Bank

variable {b : Bank} {i : Nat} {content : List Byte}

/-- Valid 0 makes the entry invalid, whatever its other bytes (R192). -/
theorem writeStream_notValid (notValid : (byteAt content 0).getLsbD 7 = false) :
    b.writeStream i content = (.ok, { b with streams := sparseErase i b.streams }) :=
  if_neg (by rw [validBit, notValid]; exact Bool.false_ne_true)

theorem writeStream_read {e : StreamEntry} (valid : (byteAt content 0).getLsbD 7 = true) (passed : ¬streamInvalid content)
    (said : e.writtenAs content) :
    b.writeStream i content =
      if streamKeyFree b.streams i e then (.ok, { b with streams := sparseInsert i e b.streams }) else (.duplicate, b) := by
  simp [writeStream, validBit, valid, readStreamEntry_eq_some.2 ⟨passed, said⟩]

/-- A valid Stream Table entry: its fields are checked first, then that no other index holds its key (R141, R142). -/
theorem writeStream_valid (valid : (byteAt content 0).getLsbD 7 = true) :
    (streamInvalid content → (b.writeStream i content).1 = .invalid) ∧
      ∀ e : StreamEntry, e.writtenAs content → ¬streamInvalid content →
        ((∃ x ∈ b.streams, x.1 ≠ i ∧ x.2.matchPort = e.matchPort ∧ x.2.stream = e.stream) →
          (b.writeStream i content).1 = .duplicate) ∧
        ((∀ x ∈ b.streams, x.1 ≠ i → ¬(x.2.matchPort = e.matchPort ∧ x.2.stream = e.stream)) →
          (b.writeStream i content).1 = .ok ∧
            (b.writeStream i content).2 = { b with streams := (b.writeStream i content).2.streams } ∧
            ∀ j, sparseGet j (b.writeStream i content).2.streams = if j = i then some e else sparseGet j b.streams) := by
  refine ⟨fun failed => ?_, fun e said passed => ⟨fun ⟨x, hx, other, key⟩ => ?_, fun free => ?_⟩⟩
  · simp [writeStream, validBit, valid, readStreamEntry_eq_none.2 failed]
  · rw [writeStream_read valid passed said, if_neg fun free => streamKeyFree_iff.1 free x hx other key]
  · rw [writeStream_read valid passed said, if_pos (streamKeyFree_iff.2 free)]
    exact ⟨rfl, rfl, fun j => sparseGet_insert i j e b.streams⟩

theorem writeDelivery_notValid (notValid : (byteAt content 0).getLsbD 7 = false) :
    b.writeDelivery i content = (.ok, { b with deliveries := sparseErase i b.deliveries }) :=
  if_neg (by rw [validBit, notValid]; exact Bool.false_ne_true)

theorem writeDelivery_read {e : DeliveryEntry} (valid : (byteAt content 0).getLsbD 7 = true)
    (passed : ¬deliveryInvalid content) (said : e.writtenAs content) :
    b.writeDelivery i content =
      if deliveryKeyFree b.deliveries i e then (.ok, { b with deliveries := sparseInsert i e b.deliveries })
      else (.duplicate, b) := by
  simp [writeDelivery, validBit, valid, readDeliveryEntry_eq_some.2 ⟨passed, said⟩]

/-- A valid Delivery Table entry, checked in the same order (R141, R142). -/
theorem writeDelivery_valid (valid : (byteAt content 0).getLsbD 7 = true) :
    (deliveryInvalid content → (b.writeDelivery i content).1 = .invalid) ∧
      ∀ e : DeliveryEntry, e.writtenAs content → ¬deliveryInvalid content →
        ((∃ x ∈ b.deliveries, x.1 ≠ i ∧ x.2.stream = e.stream) → (b.writeDelivery i content).1 = .duplicate) ∧
        ((∀ x ∈ b.deliveries, x.1 ≠ i → x.2.stream ≠ e.stream) →
          (b.writeDelivery i content).1 = .ok ∧
            (b.writeDelivery i content).2 = { b with deliveries := (b.writeDelivery i content).2.deliveries } ∧
            ∀ j, sparseGet j (b.writeDelivery i content).2.deliveries =
              if j = i then some e else sparseGet j b.deliveries) := by
  refine ⟨fun failed => ?_, fun e said passed => ⟨fun ⟨x, hx, other, key⟩ => ?_, fun free => ?_⟩⟩
  · simp [writeDelivery, validBit, valid, readDeliveryEntry_eq_none.2 failed]
  · rw [writeDelivery_read valid passed said, if_neg fun free => deliveryKeyFree_iff.1 free x hx other key]
  · rw [writeDelivery_read valid passed said, if_pos (deliveryKeyFree_iff.2 free)]
    exact ⟨rfl, rfl, fun j => sparseGet_insert i j e b.deliveries⟩

theorem write_streams : b.write .streams i content = b.writeStream i content := rfl

theorem write_deliveries : b.write .deliveries i content = b.writeDelivery i content := rfl

theorem write_level_invalid (failed : levelInvalid content) : b.write .levels i content = (.invalid, b) := by
  simp [write, readLevelEntry_eq_none.2 failed]

theorem write_level {e : LevelEntry} {l : Level} (passed : ¬levelInvalid content) (said : e.writtenAs content)
    (index : i = l.val) : b.write .levels i content = (.ok, { b with levels := b.levels.set l e }) := by
  simp only [write, readLevelEntry_eq_some.2 ⟨passed, said⟩, ofNat_val index.symm]

theorem write_port_invalid (failed : portInvalid content) : b.write .ports i content = (.invalid, b) := by
  simp [write, readPortSettings_eq_none.2 failed]

theorem write_port {e : PortSettings} {p : Port} (passed : ¬portInvalid content) (said : e.writtenAs content)
    (index : i = p.val) : b.write .ports i content = (.ok, { b with ports := b.ports.set p e }) := by
  simp only [write, readPortSettings_eq_some.2 ⟨passed, said⟩, ofNat_val index.symm]

theorem write_part_invalid (failed : partInvalid content) : b.write .part i content = (.invalid, b) := by
  simp [write, readPartSettings_eq_none.2 failed]

theorem write_part {e : PartSettings} (passed : ¬partInvalid content) (said : e.writtenAs content) :
    b.write .part i content = (.ok, { b with part := e }) := by
  simp [write, readPartSettings_eq_some.2 ⟨passed, said⟩]

/-- A write that is refused leaves the bank as it was. -/
theorem write_refused {t : Table} (refused : (b.write t i content).1 ≠ .ok) : (b.write t i content).2 = b := by
  revert refused
  cases t <;> unfold write <;> dsimp only
  case streams =>
    unfold writeStream
    repeat' split
    all_goals simp
  case deliveries =>
    unfold writeDelivery
    repeat' split
    all_goals simp
  all_goals split <;> simp

end Bank

/-! ### WRITE ENTRY at the Store (R141, R191) -/

/-- The sizes of the table that a code names (R191, R192). -/
theorem tableShape_sizes {code : Byte} {size length : Nat} (h : tableShape code.toNat size length) :
    size = (tableOfCode code).elim 0 Table.size ∧ length = (tableOfCode code).elim 0 Table.entryLength := by
  unfold tableOfCode
  rcases h with known | ⟨unknown, rfl, rfl⟩
  · simp only [List.mem_cons, List.not_mem_nil, or_false, Prod.mk.injEq] at known
    rcases known with ⟨code, rfl, rfl⟩ | ⟨code, rfl, rfl⟩ | ⟨code, rfl, rfl⟩ | ⟨code, rfl, rfl⟩ | ⟨code, rfl, rfl⟩ <;>
      rw [code] <;> exact ⟨rfl, rfl⟩
  · split
    case h_6 => exact ⟨rfl, rfl⟩
    all_goals omega

theorem requiredArgs_write {args : List Byte} {size length : Nat} (h : tableShape (byteAt args 0).toNat size length) :
    requiredArgs 3#8 args = some (3 + length) := by
  rw [(tableShape_sizes h).2]
  unfold requiredArgs
  cases tableOfCode (byteAt args 0) <;> rfl

namespace ConfigStore

variable {c : ConfigStore} {code : Byte} {i : Nat} {content : List Byte}

theorem write_busy (running : c.copyBack.isSome = true) : c.write code i content = (.busy, c) := if_pos running

theorem write_range (idle : c.copyBack = none) (outside : (tableOfCode code).elim 0 Table.size ≤ i) :
    c.write code i content = (.range, c) := by
  rw [write, if_neg (by simp [idle])]
  split
  · rfl
  · rename_i known
    rw [known] at outside
    exact if_neg (Nat.not_lt.2 outside)

theorem write_inside {t : Table} (idle : c.copyBack = none) (known : tableOfCode code = some t)
    (inside : i < (tableOfCode code).elim 0 Table.size) :
    c.write code i content =
      ((c.shadow.write t i content).1, { c with shadow := (c.shadow.write t i content).2 }) := by
  rw [known] at inside
  simp only [write, idle, known]
  exact if_pos inside

/-- WRITE ENTRY acts on the Shadow bank alone (R141). -/
theorem write_shadowOnly : (c.write code i content).2 = { c with shadow := (c.write code i content).2.shadow } := by
  unfold write
  repeat' split
  all_goals rfl

theorem write_refused (refused : (c.write code i content).1 ≠ .ok) : (c.write code i content).2 = c := by
  revert refused
  unfold write
  split
  · exact fun _ => rfl
  · split
    · exact fun _ => rfl
    · split
      · exact fun refused => by rw [Bank.write_refused refused]
      · exact fun _ => rfl

/-! ### CLEAR SHADOW at the Store (R144) -/

theorem clear_busy (running : c.copyBack.isSome = true) : c.clear code = (.busy, c) := if_pos running

theorem clear_unknown (idle : c.copyBack = none) (unknown : 6 ≤ code.toNat) : c.clear code = (.range, c) := by
  have noTable : tableOfCode code = none := by
    unfold tableOfCode
    split
    case h_6 => rfl
    all_goals omega
  have noZero : code ≠ 0#8 := by bv_omega
  simp [clear, idle, Bank.clearTable, noTable, noZero]

theorem clear_known (idle : c.copyBack = none) (known : code.toNat ≤ 5) :
    c.clear code =
      (.ok,
        { c with
          shadow :=
            { streams := if code = 0#8 ∨ code = 1#8 then [] else c.shadow.streams
              deliveries := if code = 0#8 ∨ code = 2#8 then [] else c.shadow.deliveries
              levels := if code = 0#8 ∨ code = 3#8 then Four.make LevelEntry.default else c.shadow.levels
              ports := if code = 0#8 ∨ code = 4#8 then Four.all PortSettings.default else c.shadow.ports
              part := if code = 0#8 ∨ code = 5#8 then PartSettings.default else c.shadow.part } }) := by
  have codes : code = 0#8 ∨ code = 1#8 ∨ code = 2#8 ∨ code = 3#8 ∨ code = 4#8 ∨ code = 5#8 := by bv_omega
  rw [clear, if_neg (by simp [idle])]
  rcases codes with rfl | rfl | rfl | rfl | rfl | rfl <;> rfl

theorem clear_refused (refused : (c.clear code).1 ≠ .ok) : (c.clear code).2 = c := by
  revert refused
  unfold clear
  repeat' split
  all_goals simp

end ConfigStore
end Sys2Proof.Machine

namespace Sys2Proof.Machine.State

variable {s : State} {r : Request} {p : Port}

/-- WRITE ENTRY executed: MALFORMED before the Store sees it where it ends before its entry, else what the Store answers
(R141, R158, R159). -/
theorem exec_writeEntry_answered {size length : Nat} (h : s.hasAtHead r p 3#8)
    (shape : tableShape (byteAt r.args 0).toNat size length) :
    ∃ t status, exec .writeEntry s = .next t ∧ replied s s.counters s.agent.noticeLatch t r p status [] ∧
      onlyChanges [.config, .rxPool, .egress, .agent, .counters] s t ∧
      (r.args.length < 3 + length → status = .malformed ∧ t.config = s.config) ∧
      (3 + length ≤ r.args.length →
        status = (s.config.write (byteAt r.args 0) (halfAt r.args 1).toNat (r.args.drop 3)).1 ∧
          t.config = (s.config.write (byteAt r.args 0) (halfAt r.args 1).toNat (r.args.drop 3)).2) := by
  obtain ⟨running, -, -, -, -, command⟩ := id h
  obtain ⟨t, A, hA, executed, config, answer, only⟩ :=
    exec_answered (a := s.withoutHead.carryWriteEntry r.args) (changed := [.config]) h (Laws.exec_writeEntry s running)
      (requiredArgs_write shape) (by simp [carryOut, command]) (mapConfig_onlyChanges _ _) (by decide)
  have results : A.results = [] := by
    rw [hA]
    exact Answer.checked_of (P := (·.results = [])) rfl rfl
  refine ⟨t, A.status, executed, results ▸ answer, only, fun short => ?_, fun enough => ?_⟩
  · rw [config, hA, Answer.checked_short short]
    exact ⟨rfl, rfl⟩
  · rw [config, hA, Answer.checked_enough enough]
    exact ⟨rfl, rfl⟩

/-- CLEAR SHADOW executed, likewise (R144, R158, R159). -/
theorem exec_clearShadow_answered (h : s.hasAtHead r p 4#8) :
    ∃ t status, exec .clearShadow s = .next t ∧ replied s s.counters s.agent.noticeLatch t r p status [] ∧
      onlyChanges [.config, .rxPool, .egress, .agent, .counters] s t ∧
      (r.args = [] → status = .malformed ∧ t.config = s.config) ∧
      ∀ code, r.args.head? = some code → status = (s.config.clear code).1 ∧ t.config = (s.config.clear code).2 := by
  obtain ⟨running, -, -, -, -, command⟩ := id h
  obtain ⟨t, A, hA, executed, config, answer, only⟩ :=
    exec_answered (required := 1) (a := s.withoutHead.carryClearShadow r.args) (changed := [.config]) h
      (Laws.exec_clearShadow s running) rfl (by simp [carryOut, command]) (mapConfig_onlyChanges _ _) (by decide)
  have results : A.results = [] := by
    rw [hA]
    exact Answer.checked_of (P := (·.results = [])) rfl rfl
  refine ⟨t, A.status, executed, results ▸ answer, only, fun none => ?_, fun code first => ?_⟩
  · rw [config, hA, Answer.checked_short (by simp [none])]
    exact ⟨rfl, rfl⟩
  · obtain ⟨rest, args⟩ := List.head?_eq_some_iff.1 first
    rw [config, hA, Answer.checked_enough (by simp [args]), State.carryClearShadow, args]
    exact ⟨rfl, rfl⟩

end Sys2Proof.Machine.State

open Sys2Proof.Machine in
/-- Settles O41: the Store's part is `ConfigStore.write`, table by table, and `ConfigStore.clear`. -/
theorem writesReachTheShadowBankAlone : Obligations.WritesReachTheShadowBankAlone := by
  refine ⟨?_, ?_⟩
  · rintro s r p _ _ size length _ h rfl rfl rfl shape
    obtain ⟨t, status, executed, answer, only, short, enough⟩ := State.exec_writeEntry_answered h shape
    obtain ⟨sizeIs, -⟩ := tableShape_sizes shape
    refine ⟨t, status, executed, answer, only, ?_, ?_, fun ends => (short ends).1, fun ends running => ?_,
      fun ends idle => ⟨fun outside => ?_, fun inside => ?_⟩⟩
    · rcases Nat.lt_or_ge r.args.length (3 + length) with ends | ends
      · rw [(short ends).2]
      · rw [(enough ends).2]
        exact ConfigStore.write_shadowOnly
    · intro refused
      rcases Nat.lt_or_ge r.args.length (3 + length) with ends | ends
      · exact (short ends).2
      · rw [(enough ends).1] at refused
        rw [(enough ends).2, ConfigStore.write_refused refused]
    · rw [(enough ends).1, ConfigStore.write_busy running]
    · rw [(enough ends).1, ConfigStore.write_range idle (sizeIs ▸ outside)]
    · obtain ⟨statusIs, configIs⟩ := enough ends
      have written (table : Table) (known : tableOfCode (byteAt r.args 0) = some table) :
          status = (s.config.shadow.write table (halfAt r.args 1).toNat (r.args.drop 3)).1 ∧
            t.config.shadow = (s.config.shadow.write table (halfAt r.args 1).toNat (r.args.drop 3)).2 := by
        rw [statusIs, configIs, ConfigStore.write_inside idle known (sizeIs ▸ inside)]
        exact ⟨rfl, rfl⟩
      have streams (code : (byteAt r.args 0).toNat = 1) := written .streams (by simp [tableOfCode, code])
      have deliveries (code : (byteAt r.args 0).toNat = 2) := written .deliveries (by simp [tableOfCode, code])
      have levels (code : (byteAt r.args 0).toNat = 3) := written .levels (by simp [tableOfCode, code])
      have ports (code : (byteAt r.args 0).toNat = 4) := written .ports (by simp [tableOfCode, code])
      have part (code : (byteAt r.args 0).toNat = 5) := written .part (by simp [tableOfCode, code])
      simp only [Bank.write_streams, Bank.write_deliveries] at streams deliveries
      refine ⟨fun code notValid => ⟨?_, fun code => ?_, fun code => ?_⟩, fun code valid => ?_, fun code valid => ?_,
        fun code => ⟨fun failed => ?_, fun e l said index passed => ?_⟩,
        fun code => ⟨fun failed => ?_, fun e q said index passed => ?_⟩,
        fun code => ⟨fun failed => ?_, fun e said passed => ?_⟩⟩
      · rcases code with code | code
        · rw [(streams code).1, Bank.writeStream_notValid notValid]
        · rw [(deliveries code).1, Bank.writeDelivery_notValid notValid]
      · rw [(streams code).2, Bank.writeStream_notValid notValid]
        exact ⟨rfl, fun j => sparseGet_erase _ j _⟩
      · rw [(deliveries code).2, Bank.writeDelivery_notValid notValid]
        exact ⟨rfl, fun j => sparseGet_erase _ j _⟩
      · rw [(streams code).1, (streams code).2]
        exact Bank.writeStream_valid valid
      · rw [(deliveries code).1, (deliveries code).2]
        exact Bank.writeDelivery_valid valid
      · rw [(levels code).1, Bank.write_level_invalid failed]
      · rw [(levels code).1, (levels code).2, Bank.write_level passed said index]
        exact ⟨rfl, rfl⟩
      · rw [(ports code).1, Bank.write_port_invalid failed]
      · rw [(ports code).1, (ports code).2, Bank.write_port passed said index]
        exact ⟨rfl, rfl⟩
      · rw [(part code).1, Bank.write_part_invalid failed]
      · rw [(part code).1, (part code).2, Bank.write_part passed said]
        exact ⟨rfl, rfl⟩
  · intro s r p h
    obtain ⟨t, status, executed, answer, only, malformed, cleared⟩ := State.exec_clearShadow_answered h
    refine ⟨t, status, executed, answer, only, ?_, fun none => (malformed none).1, fun code first => ?_⟩
    · intro refused
      cases first : r.args.head? with
      | none => exact (malformed (List.head?_eq_none_iff.1 first)).2
      | some code =>
        obtain ⟨statusIs, configIs⟩ := cleared code first
        rw [statusIs] at refused
        rw [configIs, ConfigStore.clear_refused refused]
    · obtain ⟨statusIs, configIs⟩ := cleared code first
      rw [statusIs, configIs]
      refine ⟨fun running => ?_, fun idle unknown => ?_, fun idle known => ?_⟩
      · rw [ConfigStore.clear_busy running]
      · rw [ConfigStore.clear_unknown idle unknown]
      · rw [ConfigStore.clear_known idle known]
        exact ⟨rfl, rfl⟩
end

section
/-! SUPPORT. The Management Agent's bounds, as a bound on each of its two lists (R155, R170): what joins a list finds room
in it, and all else that touches the Agent takes entries away or leaves both lists as they were. -/

namespace Sys2Proof.Machine

/-! ### The two halves of the invariant -/

/-- At most 4 requests of 6 to 256 bytes (R155, R157). -/
def requestsKept (q : List Request) : Prop :=
  q.length ≤ 4 ∧ ∀ r ∈ q, 6 ≤ r.payload.length ∧ r.payload.length ≤ 256

/-- At most 4 pending entries, no two with one local tag (R170). -/
def peersKept (es : List PeerEntry) : Prop := es.length ≤ 4 ∧ es.Pairwise fun e f => e.localTag ≠ f.localTag

theorem Agent.kept_iff (a : Agent) : a.kept ↔ requestsKept a.requests ∧ peersKept a.peers := and_assoc.symm

theorem requestsKept_nil : requestsKept [] := ⟨Nat.zero_le _, fun _ h => absurd h List.not_mem_nil⟩

theorem peersKept_nil : peersKept [] := ⟨Nat.zero_le _, .nil⟩

theorem requestsKept.tail {q : List Request} (h : requestsKept q) : requestsKept q.tail :=
  ⟨Nat.le_trans (List.tail_sublist q).length_le h.1, fun r hr => h.2 r (List.mem_of_mem_tail hr)⟩

theorem peersKept.erase {es : List PeerEntry} (h : peersKept es) (e : PeerEntry) : peersKept (es.erase e) :=
  ⟨Nat.le_trans List.erase_sublist.length_le h.1, h.2.sublist List.erase_sublist⟩

/-- A request joins while the queue has a place (R157). -/
theorem requestsKept.join {q : List Request} (h : requestsKept q) (place : q.length < 4) {r : Request}
    (atLeast : 6 ≤ r.payload.length) (atMost : r.payload.length ≤ 256) : requestsKept (q ++ [r]) := by
  refine ⟨by rw [List.length_append]; exact place, fun x hx => ?_⟩
  rcases List.mem_append.1 hx with old | new
  · exact h.2 x old
  · rw [List.mem_singleton.1 new]
    exact ⟨atLeast, atMost⟩

/-- An entry joins while the table has a place and no entry holds its local tag (R171). -/
theorem peersKept.join {es : List PeerEntry} (h : peersKept es) (place : es.length < 4) {e : PeerEntry}
    (free : ∀ x ∈ es, x.localTag ≠ e.localTag) : peersKept (es ++ [e]) := by
  refine ⟨by rw [List.length_append]; exact place,
    List.pairwise_append.2 ⟨h.2, List.pairwise_singleton _ _, fun x hx y hy => ?_⟩⟩
  rw [List.mem_singleton.1 hy]
  exact free x hx

theorem Agent.cold_kept : Agent.cold.kept := (kept_iff _).2 ⟨requestsKept_nil, peersKept_nil⟩

/-- A payload that is taken as a request has room in the queue and a length in its bounds (R156). -/
theorem classifyPayload_request {fromTrunk : Bool} {queued : Nat} {bs : List Byte}
    (taken : classifyPayload fromTrunk queued bs = .request) : queued < 4 ∧ 6 ≤ bs.length ∧ bs.length ≤ 256 := by
  simp only [classifyPayload, Config.longestPayload, Config.requestPlaces] at taken
  grind

/-! ### What leaves the Pending Peer Table as it was -/

namespace State

variable {s : State}

@[simp] theorem agentClaimFailed_peers (n : Nat) : (s.agentClaimFailed n).agent.peers = s.agent.peers := by
  rw [agentClaimFailed_agent]

@[simp] theorem sendTrunk_peers (o : Origin) (bs : List Byte) : (s.sendTrunk o bs).1.agent.peers = s.agent.peers := by
  unfold sendTrunk
  split <;> simp

@[simp] theorem trunkReply_peers (g : Half) (bs : List Byte) : (s.trunkReply g bs).1.agent.peers = s.agent.peers := by
  have sent := s.sendTrunk_peers .trunkReply bs
  unfold trunkReply
  split
  · split <;> rename_i q <;> rw [q] at sent <;> simpa using sent
  · simp

@[simp] theorem reply_peers (r : Request) (status : Status) (results : List Byte) :
    (s.reply r status results).1.agent.peers = s.agent.peers := by
  unfold reply
  split <;> simp

/-! ### Payloads and delivery (R121, R156, R157, R172) -/

/-- The Agent's lists in one state are those of another. -/
theorem agentKept_of_same {t : State} (requests : t.agent.requests = s.agent.requests)
    (peers : t.agent.peers = s.agent.peers) (h : s.agent.kept) : t.agent.kept := by
  rw [Agent.kept_iff] at h ⊢
  rwa [requests, peers]

theorem acceptRequest_keepsAgent (source : Source) {bs : List Byte} (h : s.agent.kept)
    (taken : s.agent.requests.length < 4 ∧ 6 ≤ bs.length ∧ bs.length ≤ 256) : (s.acceptRequest source bs).agent.kept := by
  obtain ⟨requests, peers⟩ := (Agent.kept_iff _).1 h
  obtain ⟨place, atLeast, atMost⟩ := taken
  exact (Agent.kept_iff _).2 ⟨requests.join place atLeast atMost, peers⟩

theorem erasePeer_keepsAgent (e : PeerEntry) (h : s.agent.kept) :
    (s.mapAgent fun a => { a with peers := a.peers.erase e }).agent.kept := by
  obtain ⟨requests, peers⟩ := (Agent.kept_iff _).1 h
  exact (Agent.kept_iff _).2 ⟨requests, peers.erase e⟩

theorem stationPayload_keepsAgent (p : Port) (bs : List Byte) (h : s.agent.kept) : (s.stationPayload p bs).agent.kept := by
  unfold stationPayload
  split
  · exact agentKept_of_same (by simp) (by simp) h
  · exact h
  · exact acceptRequest_keepsAgent _ h (classifyPayload_request ‹_›)

theorem peerReply_keepsAgent (n : Nat) (bs : List Byte) (h : s.agent.kept) : (s.peerReply n bs).agent.kept := by
  unfold peerReply
  split
  · exact agentKept_of_same (by simp) (by simp) h
  · rename_i e _
    exact agentKept_of_same (by simp [relayReply]) (by simp [relayReply]) (erasePeer_keepsAgent e h)

theorem trunkPayload_keepsAgent (n : Nat) (bs : List Byte) (h : s.agent.kept) : (s.trunkPayload n bs).agent.kept := by
  unfold trunkPayload
  split
  · exact agentKept_of_same (by simp) (by simp) h
  · exact peerReply_keepsAgent n bs h
  · exact acceptRequest_keepsAgent _ h (classifyPayload_request ‹_›)

theorem deliver_keepsAgent (n : Nat) (h : s.agent.kept) : (s.deliver n).agent.kept := by
  unfold deliver
  split
  · exact h
  · split
    · exact trunkPayload_keepsAgent n _ h
    · simpa using h

theorem handOff_keepsAgent (l : Level) (n : Nat) (h : s.agent.kept) : (s.handOff l n).agent.kept :=
  deliver_keepsAgent n (by simpa using h)

/-! ### The Reassembler (R48 to R59) -/

theorem abortWhere_keepsAgent (named : RxEntry → Bool) (r : AbortReason) (h : s.agent.kept) :
    (s.abortWhere named r).agent.kept := agentKept_of_same (by simp) (by simp) h

theorem startFrame_keepsAgent (d : RxData) (h : s.agent.kept) : (s.startFrame d).agent.kept := by
  unfold startFrame
  split
  · exact agentKept_of_same (by simp) (by simp) h
  · dsimp only
    split
    · exact agentKept_of_same (by simp) (by simp) h
    · rename_i stored
      obtain ⟨p, -, -, rfl⟩ := storeCell_eq _ _ _ _ stored
      simpa using h

theorem wholeFrame_keepsAgent (d : RxData) (h : s.agent.kept) : (s.wholeFrame d).agent.kept := by
  unfold wholeFrame
  split
  · exact agentKept_of_same (by simp) (by simp) h
  · split
    · exact agentKept_of_same (by simp) (by simp) h
    · rename_i stored
      obtain ⟨p, -, -, rfl⟩ := storeCell_eq _ _ _ _ stored
      exact handOff_keepsAgent _ _ (by simpa using h)

theorem storeSegment_keepsAgent (e : RxEntry) (d : RxData) (h : s.agent.kept) : (s.storeSegment e d).1.agent.kept := by
  unfold storeSegment
  split
  · simpa using h
  · split
    · exact agentKept_of_same (by simp) (by simp) h
    · rename_i found
      obtain ⟨n, -, stored⟩ := Option.bind_eq_some_iff.mp found
      obtain ⟨p, -, -, rfl⟩ := storeCell_eq _ _ _ _ stored
      simpa using h

theorem completeFrame_keepsAgent (e : RxEntry) (h : s.agent.kept) : (s.completeFrame e).agent.kept := by
  unfold completeFrame
  dsimp only
  split
  · exact h
  · exact handOff_keepsAgent _ _ h

theorem matchedSegment_keepsAgent (e : RxEntry) (d : RxData) (h : s.agent.kept) :
    (s.matchedSegment e d).agent.kept := by
  have stored := storeSegment_keepsAgent e d h
  unfold matchedSegment
  dsimp only
  split
  · split
    · exact abortWhere_keepsAgent _ _ h
    · exact h
  · split <;> rename_i q <;> rw [q] at stored
    · split
      · exact abortWhere_keepsAgent _ _ stored
      · exact stored
    · split
      · split
        · exact completeFrame_keepsAgent e stored
        · exact abortWhere_keepsAgent _ _ stored
      · exact stored

theorem continueFrame_keepsAgent (d : RxData) (h : s.agent.kept) : (s.continueFrame d).agent.kept := by
  unfold continueFrame
  split
  · simpa using h
  · dsimp only
    split
    · exact matchedSegment_keepsAgent _ d (abortWhere_keepsAgent _ _ h)
    · exact agentKept_of_same (by simp) (by simp) h

theorem kindRule_keepsAgent (d : RxData) (h : s.agent.kept) : (s.kindRule d).agent.kept := by
  unfold kindRule
  split
  · exact startFrame_keepsAgent d (abortWhere_keepsAgent _ _ h)
  · exact wholeFrame_keepsAgent d (abortWhere_keepsAgent _ _ h)
  · exact continueFrame_keepsAgent d h
  · exact continueFrame_keepsAgent d h

theorem reassemble_keepsAgent (d : RxData) (h : s.agent.kept) : (s.reassemble d).agent.kept := by
  unfold reassemble
  dsimp only
  split
  · exact kindRule_keepsAgent d h
  · split
    · exact kindRule_keepsAgent d (by simpa using h)
    · exact h

/-! ### DOWN events and segments on arrival (R70 to R80, R174) -/

/-- A DOWN event empties the Pending Peer Table. -/
theorem linkDown_keepsAgent (cause : LinkCause) (h : s.agent.kept) : (s.linkDown cause).agent.kept := by
  by_cases down : s.link.state = .down
  · simpa [linkDown, down] using h
  · obtain ⟨-, ⟨-, -, -, -, -, -, peers, -⟩, requests, -⟩ := s.linkDown_spec cause down
    rw [Agent.kept_iff, requests, peers]
    exact ⟨((Agent.kept_iff _).1 h).1, peersKept_nil⟩

theorem enterUp_keepsAgent (h : s.agent.kept) : s.enterUp.agent.kept :=
  agentKept_of_same (by simp [enterUp, fourIndices]) (by simp [enterUp, fourIndices]) h

theorem takeUp_keepsAgent (g : GoodSegment) (h : s.agent.kept) : (s.takeUp g).agent.kept := by
  cases g with
  | data d => simpa [takeUp] using reassemble_keepsAgent d h
  | control limits => simpa [takeUp] using h
  | hello heardYou limits => exact h

theorem enterUpWith_keepsAgent (g : GoodSegment) (h : s.agent.kept) : (s.enterUpWith g).agent.kept := by
  have entered : s.enterUp.countEntrySegment.useFree.agent.kept := by simpa using enterUp_keepsAgent h
  unfold enterUpWith
  dsimp only
  split
  · exact takeUp_keepsAgent g (by simpa using entered)
  · simpa using takeUp_keepsAgent g entered

theorem goodInHello_keepsAgent (g : GoodSegment) (h : s.agent.kept) : (s.goodInHello g).agent.kept := by
  unfold goodInHello
  split
  · split
    · simpa [enterUpAtHello] using enterUp_keepsAgent (s := s.storeHello _) h
    · exact h
  · split
    · exact enterUpWith_keepsAgent _ h
    · exact h
  · split
    · exact enterUpWith_keepsAgent _ h
    · exact h

theorem goodInUp_keepsAgent (g : GoodSegment) (h : s.agent.kept) : (s.goodInUp g).agent.kept := by
  unfold goodInUp
  dsimp only
  split
  · split
    · exact h
    · exact linkDown_keepsAgent _ h
  · exact takeUp_keepsAgent _ h
  · exact takeUp_keepsAgent _ h

theorem goodSegment_keepsAgent (g : GoodSegment) (h : s.agent.kept) : (s.goodSegment g).agent.kept := by
  have counted : (match g with
      | .control _ => (s.countTrunk .segmentsReceived).countTrunk .controlReceived
      | .data _ => s.countTrunk .segmentsReceived
      | .hello _ _ => s.countTrunk .segmentsReceived).agent.kept := by
    cases g <;> exact h
  unfold goodSegment
  dsimp only
  split
  · exact counted
  · exact goodInHello_keepsAgent g counted
  · exact goodInUp_keepsAgent g counted

theorem badSegment_keepsAgent (h : s.agent.kept) : s.badSegment.agent.kept := by
  unfold badSegment
  dsimp only
  split
  · split
    · exact linkDown_keepsAgent _ h
    · exact h
  · exact h

/-! ### Restarts and deferred commands (R167 to R169, R176, R177) -/

/-- A TRAFFIC restart empties the Pending Peer Table and keeps the requests (R176, R177). -/
theorem restartTraffic_keepsAgent (h : s.agent.kept) : s.restartTraffic.agent.kept := by
  have requests : s.restartTraffic.agent.requests = s.agent.requests := by simp [restartTraffic_eq, offerRestart]
  have peers : s.restartTraffic.agent.peers = [] := by simp [restartTraffic_eq, offerRestart]
  rw [Agent.kept_iff, requests, peers]
  exact ⟨((Agent.kept_iff _).1 h).1, peersKept_nil⟩

theorem linkAction_keepsAgent (a : LinkAction) (h : s.agent.kept) : (s.linkAction a).agent.kept := by
  cases a with
  | drop =>
    simp only [linkAction, linkDrop]
    split
    · split <;> exact h
    · exact linkDown_keepsAgent _ h
  | hold =>
    simp only [linkAction, linkHold]
    split
    · exact h
    · exact linkDown_keepsAgent _ h
  | release => simpa [linkAction] using h

theorem applyCommand_keepsAgent (c : DeferredCommand) (h : s.agent.kept) : (s.applyCommand c).agent.kept := by
  cases c with
  | linkControl a => exact linkAction_keepsAgent a h
  | restart k =>
    cases k with
    | traffic => exact restartTraffic_keepsAgent h
    | full => simpa [applyCommand, restart, restartFull] using Agent.cold_kept

theorem replyLeft_keepsAgent (left : AwaitedReply) (h : s.agent.kept) : (s.replyLeft left).agent.kept := by
  unfold replyLeft
  split
  · exact h
  · split
    · exact applyCommand_keepsAgent _ h
    · exact h

theorem releaseIfDown_keepsAgent (before : State) (h : s.agent.kept) : (releaseIfDown before s).agent.kept := by
  unfold releaseIfDown commandOnDown
  split
  · split
    · exact h
    · exact h
    · exact applyCommand_keepsAgent _ h
  · exact h

/-! ### Replies and the execution of requests (R158 to R171) -/

theorem reply_keepsAgent (r : Request) (status : Status) (results : List Byte) (h : s.agent.kept) :
    (s.reply r status results).1.agent.kept := agentKept_of_same (by simp) (by simp) h

theorem deferCommand_keepsAgent (r : Request) (c : Option DeferredCommand) (h : s.agent.kept) :
    (s.deferCommand r c).agent.kept := by
  cases c with
  | none => exact reply_keepsAgent r .range [] h
  | some c =>
    have replied := reply_keepsAgent r .ok [] h
    simp only [deferCommand]
    cases (s.reply r .ok []).2 with
    | none => exact applyCommand_keepsAgent c replied
    | some awaited => exact replied

/-! What a command carries out before its reply leaves both lists of the Agent as they were. -/

theorem carryReadCounters_agent (args : List Byte) : (s.carryReadCounters args).state.agent = s.agent := by
  unfold carryReadCounters
  repeat' split
  all_goals rfl

theorem carryReadEvents_keepsAgent (args : List Byte) (h : s.agent.kept) : (s.carryReadEvents args).state.agent.kept := by
  unfold carryReadEvents
  dsimp only
  split <;> exact h

theorem carryAckEvents_agent (args : List Byte) : (s.carryAckEvents args).state.agent = s.agent := by
  unfold carryAckEvents
  dsimp only
  split <;> rfl

theorem carryFlushLevel_agent (args : List Byte) : (s.carryFlushLevel args).state.agent = s.agent := by
  unfold carryFlushLevel
  split
  · rfl
  · simp

theorem carryOut_keepsAgent (r : Request) (h : s.agent.kept) : (s.carryOut r).agent.kept := by
  have sent (a : Answer) (ha : a.state.agent.kept) : (a.send r).agent.kept := reply_keepsAgent r _ _ ha
  unfold carryOut
  split
  · exact sent _ h
  · exact sent _ (by rwa [carryReadEntries_state])
  · exact sent _ h
  · exact sent _ h
  · exact sent _ h
  · exact sent _ (by rwa [carryReadCounters_agent])
  · exact sent _ (carryReadEvents_keepsAgent _ h)
  · exact sent _ (by rwa [carryAckEvents_agent])
  · exact sent _ (by rwa [carryFlushLevel_agent])
  · exact deferCommand_keepsAgent r _ h
  · exact deferCommand_keepsAgent r _ h

/-- A relayed request joins the table under a tag that no entry holds (R171). -/
theorem newPeer_keepsAgent {t : State} (r : Request) (p : Port) (h : s.agent.kept) (place : s.agent.peers.length < 4)
    (requests : t.agent.requests = s.agent.requests) (peers : t.agent.peers = s.agent.peers) (next : Byte) :
    (t.mapAgent fun a => { a with peers := a.peers ++ [s.newPeer r p], nextLocalTag := next }).agent.kept := by
  obtain ⟨k, -, tag, free, -⟩ := Agent.chooseTag_first place
  obtain ⟨queue, table⟩ := (Agent.kept_iff _).1 h
  rw [Agent.kept_iff, mapAgent_agent, requests, peers]
  refine ⟨queue, table.join place fun x hx => ?_⟩
  rw [show (s.newPeer r p).localTag = s.agent.tagAfter k from tag]
  exact free x hx

theorem forward_keepsAgent (r : Request) (p : Port) (h : s.agent.kept) : (s.forward r p).agent.kept := by
  have requests := s.sendTrunk_requests .forwardedRequest (r.relayed (s.newPeer r p).localTag)
  have peers := s.sendTrunk_peers .forwardedRequest (r.relayed (s.newPeer r p).localTag)
  unfold forward
  split
  · exact reply_keepsAgent r _ _ h
  · split
    · exact reply_keepsAgent r _ _ h
    · rename_i place
      dsimp only
      split <;> rename_i q <;> rw [q] at requests peers
      · exact reply_keepsAgent r _ _ (agentKept_of_same requests peers h)
      · exact newPeer_keepsAgent r p h (Nat.lt_of_not_le place) requests peers _

theorem executeLocal_keepsAgent (r : Request) (h : s.agent.kept) : (s.executeLocal r).agent.kept := by
  unfold executeLocal
  split
  · exact reply_keepsAgent r _ _ h
  · split
    · exact reply_keepsAgent r _ _ h
    · exact carryOut_keepsAgent r h

theorem executeHead_keepsAgent (r : Request) (h : s.agent.kept) : (s.executeHead r).agent.kept := by
  obtain ⟨requests, peers⟩ := (Agent.kept_iff _).1 h
  have taken : (s.mapAgent fun a => { a with requests := a.requests.tail }).agent.kept :=
    (Agent.kept_iff _).2 ⟨requests.tail, peers⟩
  unfold executeHead executeRequest
  split
  · split
    · exact reply_keepsAgent r _ _ taken
    · split
      · exact reply_keepsAgent r _ _ taken
      · exact executeLocal_keepsAgent r taken
  · split
    · exact forward_keepsAgent r _ taken
    · exact executeLocal_keepsAgent r taken

/-! ### The events of the lines, the ports and the timers -/

theorem lineSymbol_keepsAgent (how : ReceptionEnd) (h : s.agent.kept) : (s.lineSymbol how).agent.kept := by
  have opened (t : State) (ht : t.agent.kept) : (t.openReception how).agent.kept := by cases how <;> exact ht
  unfold lineSymbol
  split
  · exact opened s h
  · refine opened _ (releaseIfDown_keepsAgent s ?_)
    unfold reportSegment
    split
    · exact badSegment_keepsAgent h
    · exact goodSegment_keepsAgent _ h

theorem signalLost_keepsAgent (h : s.agent.kept) : s.signalLost.agent.kept := by
  unfold signalLost
  dsimp only
  split
  · exact h
  · exact releaseIfDown_keepsAgent _ (linkDown_keepsAgent _ h)

theorem signalBack_keepsAgent (h : s.agent.kept) : s.signalBack.agent.kept := by
  unfold signalBack
  dsimp only
  split
  · simpa [setSignal] using h
  · exact h

theorem txClaimFailed_keepsAgent (b : Subject) (n : Nat) (h : s.agent.kept) : (s.txClaimFailed b n).agent.kept := by
  unfold txClaimFailed
  split
  · exact h
  · exact agentKept_of_same (by simp) (by simp) h

theorem takeRise_keepsAgent (p : Port) (h : s.agent.kept) : (s.takeRise p).agent.kept := by
  have begun : (s.beginFrame p).agent.kept := by
    unfold beginFrame
    split
    · exact txClaimFailed_keepsAgent (s := s.setSpr p _) _ _ h
    · exact h
  unfold takeRise
  split
  · exact begun
  · exact begun
  · exact h
  · exact h

theorem payloadByte_keepsAgent (p : Port) (r : Spr) (n : Nat) (b : Byte) (h : s.agent.kept) :
    (s.payloadByte p r n b).agent.kept := by
  unfold payloadByte dropNoBuffer
  split
  · exact h
  · split
    · exact h
    · split
      · exact txClaimFailed_keepsAgent (s := s.setSpr p _) _ _ h
      · exact h

theorem takeByte_keepsAgent (p : Port) (b : Byte) (h : s.agent.kept) : (s.takeByte p b).agent.kept := by
  unfold takeByte
  dsimp only
  split
  · split
    · exact h
    · split
      · exact payloadByte_keepsAgent p _ _ b h
      · exact h
  · exact h
  · exact h
  · exact h

theorem userFrame_keepsAgent (p : Port) (r : Spr) (n : Nat) (h : s.agent.kept) : (s.userFrame p r n).agent.kept := by
  have treated (t : State) (c : Classified) (ht : t.agent.kept) : (t.treatFrame p r n c).agent.kept := by
    unfold treatFrame
    split
    · exact ht
    · split
      · simpa using ht
      · exact ht
  unfold userFrame
  refine treated _ _ ?_
  split <;> exact h

theorem takeFall_keepsAgent (p : Port) (h : s.agent.kept) : (s.takeFall p).agent.kept := by
  unfold takeFall
  dsimp only
  split
  · exact h
  · exact h
  · exact h
  · unfold endFrame
    split
    · exact h
    · unfold managementFrame
      split
      · exact stationPayload_keepsAgent _ _ h
      · exact h
    · exact userFrame_keepsAgent p _ _ h

theorem transmissionDone_keepsAgent (h : s.agent.kept) : s.transmissionDone.agent.kept := by
  have completed (g : Segment) : (s.segmentCompleted g).agent.kept := by simpa using h
  unfold transmissionDone
  split
  · exact h
  · split
    · rename_i g _ _ _
      simpa using completed g
    · simpa using replyLeft_keepsAgent _ (completed _)

theorem suspensionExpired_keepsAgent (l : Level) (h : s.agent.kept) : (s.suspensionExpired l).agent.kept := by
  unfold suspensionExpired
  split
  · exact h
  · split
    · exact agentKept_of_same (by simp [protectAt]) (by simp [protectAt]) h
    · exact h

theorem ageAt_keepsAgent (l : Level) (h : s.agent.kept) : (s.ageAt l).agent.kept := by simpa [ageAt] using h

theorem peerExpired_keepsAgent (tag : Byte) (h : s.agent.kept) : (s.peerExpired tag).agent.kept := by
  unfold peerExpired
  split
  · exact h
  · split
    · rename_i e _ _
      exact agentKept_of_same (by simp [peerTimedOut]) (by simp [peerTimedOut]) (erasePeer_keepsAgent e h)
    · exact h

theorem egressCompleted_keepsAgent (p : Port) (h : s.agent.kept) : (s.egressCompleted p).agent.kept := by
  unfold egressCompleted
  split
  · exact replyLeft_keepsAgent _ (by simpa using h)
  · exact h
  · exact h
  · exact h

/-- An event that is taken when a condition holds. -/
theorem ite_keepsAgent {c : Prop} [Decidable c] {t u : State} (ht : t.agent.kept) (hu : u.agent.kept) :
    (if c then t else u).agent.kept := by
  split
  · exact ht
  · exact hu

theorem copyBackDone_keepsAgent (h : s.agent.kept) : s.copyBackDone.agent.kept :=
  agentKept_of_same (by simp [copyBackDone]) (by simp [copyBackDone]) h

theorem eventRunning_keepsAgent (c : Instr) (h : s.agent.kept) : (eventRunning c s).agent.kept := by
  cases c with
  | lineSignalLoss => exact ite_keepsAgent (signalLost_keepsAgent h) h
  | lineSignalReturn => exact ite_keepsAgent h (signalBack_keepsAgent h)
  | segmentReceptionEnd how => exact lineSymbol_keepsAgent how h
  | startDelimiterArrival => exact lineSymbol_keepsAgent _ h
  | frameValidRise p => exact ite_keepsAgent h (takeRise_keepsAgent p h)
  | stationByteReceived p b => exact ite_keepsAgent (takeByte_keepsAgent p b h) h
  | frameValidFall p => exact ite_keepsAgent (takeFall_keepsAgent p h) h
  | transmissionCompletion => exact transmissionDone_keepsAgent h
  | holdOffExpiry => exact ite_keepsAgent (by simpa using h) h
  | helloDeadlineExpiry => exact ite_keepsAgent (by simpa [nextHello] using h) h
  | silenceDeadlineExpiry => exact ite_keepsAgent (releaseIfDown_keepsAgent s (linkDown_keepsAgent _ h)) h
  | keepaliveDeadlineExpiry => exact ite_keepsAgent (by simpa [keepalive] using h) h
  | advanceDeadlineExpiry l => exact ite_keepsAgent (by simpa [advanceAged] using h) h
  | suspensionDeadlineExpiry l => exact suspensionExpired_keepsAgent l h
  | ageDeadlineExpiry l => exact ite_keepsAgent (ageAt_keepsAgent l h) h
  | peerDeadlineExpiry tag => exact peerExpired_keepsAgent tag h
  | copyBackCompletion => exact ite_keepsAgent (copyBackDone_keepsAgent h) h
  | egressCompletion p => exact egressCompleted_keepsAgent p h
  | _ => exact h

/-- The Agent's bounds are kept by everything the part can do. -/
theorem agentKept_keptBySteps : KeptBySteps fun s => s.agent.kept where
  queue _ _ _ h := h
  resetAsserted _ _ _ h := h
  coldStart _ _ := by simpa [State.coldStart] using Agent.cold_kept
  supplyLost _ h := h
  execution _ r h _ := executeHead_keepsAgent r h
  held c _ h := by cases c <;> exact h
  event c _ h := eventRunning_keepsAgent c h
  tick _ h := h

end State

end Sys2Proof.Machine

/-- Settles O55, by the induction over every kind of step. -/
theorem everyStepKeepsTheAgentsBounds : Obligations.EveryStepKeepsTheAgentsBounds :=
  fun _ _ h e => Sys2Proof.Machine.State.agentKept_keptBySteps.step h e
end

section
/-! A step with no command waiting: the head request executed, a due event queued, or a microsecond passed (R158, R186). -/

namespace Sys2Proof.Machine

/-! ### The request at the head (R158) -/

theorem Request.isLocal_of {r : Request} {code : Byte} (type : r.type = 0#8) (command : r.command = code) :
    r.isLocal code.toNat = true := by
  simp [isLocal, type, command]

theorem Request.isLocalWith_of {r : Request} {code argument : Byte} (type : r.type = 0#8) (command : r.command = code)
    (first : r.args.head? = some argument) : r.isLocalWith code.toNat argument.toNat = true := by
  simp [isLocalWith, isLocal_of type command, first]

namespace State

variable {s : State}

theorem step_empty (empty : s.pending = []) : step s = .next s.idle := by rw [step, empty]

theorem headReady_of_ready {r : Request} (ready : s.agent.mode = .ready) (head : s.agent.requests.head? = some r) :
    s.agent.headReady = some r := by rw [Agent.headReady, ready, head]

theorem idle_executes {r : Request} (running : s.running) (due : s.agent.headReady = some r) :
    s.idle = s.executeHead r := by
  simp [idle, show s.pins.resetHeld = false from running, due]

/-- The step is the command that names the request at the head. -/
theorem step_eq_exec {r : Request} {i : Instr} {named : Request → Bool} (empty : s.pending = []) (running : s.running)
    (ready : s.agent.mode = .ready) (head : s.agent.requests.head? = some r)
    (executes : exec i s = .next (s.executeIf named)) (names : named r = true) : step s = exec i s := by
  rw [step_empty empty, idle_executes running (headReady_of_ready ready head), executes,
    s.executeIf_head r named ready head names]

/-! ### An event that is due (R186) -/

theorem idle_atRest (rest : s.atRest) : s.idle = if s.dueEvents.isEmpty then s.tick else s.takeDue s.dueEvents := by
  obtain ⟨running, none⟩ := rest
  simp [idle, show s.pins.resetHeld = false from running, none]

theorem queueCommand_onlyChanges (c : Instr) : onlyChanges [.pending] s (s.queueCommand c) := by
  intro b hb
  cases b <;> first | exact absurd (by decide) hb | rfl

theorem useFree_onlyChanges : onlyChanges [.freeCount] s s.useFree := by
  intro b hb
  cases b <;> first | exact absurd (by decide) hb | rfl

/-- Of the events due one is queued, whichever the free value picks (log 3). -/
theorem takeDue_queues {due : List Instr} (some : due ≠ []) :
    ∃ c ∈ due, (s.takeDue due).pending = s.pending ++ [c] ∧ onlyChanges [.pending, .freeCount] s (s.takeDue due) := by
  match due with
  | [] => exact absurd rfl some
  | [c] => exact ⟨c, List.mem_singleton_self c, rfl, onlyChanges_mono (queueCommand_onlyChanges c) (by decide)⟩
  | c :: d :: cs =>
    have inside : Config.pickEvent s.freeCount % (c :: d :: cs).length < (c :: d :: cs).length :=
      Nat.mod_lt _ (Nat.succ_pos _)
    refine ⟨(c :: d :: cs)[Config.pickEvent s.freeCount % (c :: d :: cs).length], List.getElem_mem inside, ?_,
      onlyChanges_chain useFree_onlyChanges (queueCommand_onlyChanges _) (by decide)⟩
    rw [takeDue, List.getD_eq_getElem?_getD, List.getElem?_eq_getElem inside, Option.getD_some]
    rfl

theorem dueEvents_ne_nil_iff : s.dueEvents ≠ [] ↔ ∃ c, s.isDue c := by
  refine ⟨fun some => ?_, fun ⟨c, due⟩ => List.ne_nil_of_mem ((s.mem_dueEvents c).2 due)⟩
  obtain ⟨c, mem⟩ := List.exists_mem_of_ne_nil _ some
  exact ⟨c, (s.mem_dueEvents c).1 mem⟩

/-! ### A microsecond (R186) -/

theorem gapOver_state (e : EgressPort) : e.gapOver.state = if e.state = .sending then .sending else .idle := by
  unfold EgressPort.gapOver
  cases e.state <;> rfl

theorem tick_egress (p : Port) : s.tick.egress.get p = (s.egress.get p).gapOver := by simp [tick]

theorem tick_onlyChanges : onlyChanges [.time, .egress, .trunkTx] s s.tick := by
  intro b hb
  cases b <;> first | exact absurd (by decide) hb | rfl

end State
end Sys2Proof.Machine

open Sys2Proof Sys2Proof.Machine in
/-- Settles O3, by the three things an idle part can do; the second part is the law of the executions due. -/
theorem emptyQueueStepServesTheAgentOrTime : Obligations.EmptyQueueStepServesTheAgentOrTime := by
  refine ⟨fun s r empty running ready head => ?_, fun c s r running due waits => Laws.exec_due s c r running due waits,
    fun s empty rest due => ?_, fun s empty rest none => ?_⟩
  · have named {i : Instr} {names : Request → Bool} (executes : exec i s = .next (s.executeIf names))
        (kind : names r = true) : step s = exec i s :=
      State.step_eq_exec empty running ready head executes kind
    refine ⟨?_, fun type => named (Laws.exec_requestPeerForwarding s running) (by simp [Request.isPeer, type]),
      fun type => ?_⟩
    · rw [State.step_empty empty, State.idle_executes running (State.headReady_of_ready ready head)]
    · have coded {code : Byte} := Request.isLocal_of (code := code) type
      have argued {code argument : Byte} := Request.isLocalWith_of (code := code) (argument := argument) type
      exact ⟨fun command => named (Laws.exec_status s running) (coded command),
        fun command => named (Laws.exec_readEntries s running) (coded command),
        fun command => named (Laws.exec_writeEntry s running) (coded command),
        fun command => named (Laws.exec_clearShadow s running) (coded command),
        fun command => named (Laws.exec_commit s running) (coded command),
        fun command => named (Laws.exec_readCounters s running) (coded command),
        fun command => named (Laws.exec_readEvents s running) (coded command),
        fun command => named (Laws.exec_ackEvents s running) (coded command),
        fun command => named (Laws.exec_flushLevel s running) (coded command),
        fun command first => named (Laws.exec_linkControlDrop s running) (argued command first),
        fun command first => named (Laws.exec_linkControlHold s running) (argued command first),
        fun command first => named (Laws.exec_linkControlRelease s running) (argued command first),
        fun command first => named (Laws.exec_trafficRestart s running) (argued command first),
        fun command first => named (Laws.exec_fullRestart s running) (argued command first)⟩
  · have some := State.dueEvents_ne_nil_iff.2 due
    obtain ⟨c, mem, queued, only⟩ := State.takeDue_queues (s := s) some
    refine ⟨s.takeDue s.dueEvents, c, ?_, (s.mem_dueEvents c).1 mem, by rw [queued, empty, List.nil_append], only⟩
    rw [State.step_empty empty, State.idle_atRest rest, if_neg (by simpa using some)]
  · have nil : s.dueEvents = [] := Classical.byContradiction fun some =>
      let ⟨c, due⟩ := State.dueEvents_ne_nil_iff.1 some
      none c due
    refine ⟨s.tick, ?_, rfl, rfl, fun p => ?_, State.tick_onlyChanges⟩
    · rw [State.step_empty empty, State.idle_atRest rest, if_pos (by simp [nil])]
    · rw [State.tick_egress]
      exact ⟨rfl, State.gapOver_state _⟩
end

section
/-! STATUS: the block, laid out as section 11.3 gives it (R161, R191). -/

namespace Sys2Proof.Machine.State

/-- The cell count of a level's queue stands at its place in the STATUS block, and the head wait at its own. -/
theorem statusBlock_level (s : State) (l : Level) :
    (s.statusBlock.drop (21 + 2 * l.val)).take 2 = natHalf (s.levelQueueCells l) ∧
      (s.statusBlock.drop (29 + 4 * l.val)).take 4 = wordBytes (s.headWait l) := by
  match l with
  | 0 =>
    show (s.statusBlock.drop 21).take 2 = _ ∧ (s.statusBlock.drop 29).take 4 = _
    simp [statusBlock, halfBytes, wordBytes, natHalf, fourIndices]
  | 1 =>
    show (s.statusBlock.drop 23).take 2 = _ ∧ (s.statusBlock.drop 33).take 4 = _
    simp [statusBlock, halfBytes, wordBytes, natHalf, fourIndices]
  | 2 =>
    show (s.statusBlock.drop 25).take 2 = _ ∧ (s.statusBlock.drop 37).take 4 = _
    simp [statusBlock, halfBytes, wordBytes, natHalf, fourIndices]
  | 3 =>
    show (s.statusBlock.drop 27).take 2 = _ ∧ (s.statusBlock.drop 41).take 4 = _
    simp [statusBlock, halfBytes, wordBytes, natHalf, fourIndices]

theorem statusBlock_linkState (s : State) : (s.statusBlock.drop 14).take 1 = [natByte s.link.state.code] := by
  simp [statusBlock, halfBytes, wordBytes, natHalf, fourIndices]

theorem headWait_empty {s : State} {l : Level} (empty : s.sched.queues.get l = []) : s.headWait l = 0#32 := by
  rw [headWait, empty]

theorem headWait_head {s : State} {l : Level} {f : TxDescriptor} {rest : List TxDescriptor}
    (queue : s.sched.queues.get l = f :: rest) : s.headWait l = s.now - f.admissionTime := by
  rw [headWait, queue]

end Sys2Proof.Machine.State

open Sys2Proof Sys2Proof.Machine in
/-- Settles O39: the block is read from the state that the head request has left, each field at its place. -/
theorem statusReportsTheBlock : Obligations.StatusReportsTheBlock := by
  intro s r p h
  obtain ⟨running, -, -, -, -, command⟩ := id h
  obtain ⟨t, A, hA, executed, -, answer, only⟩ :=
    State.exec_answered (required := 0) (a := s.withoutHead.carryStatus) (changed := []) h (Laws.exec_status s running) rfl
      (by simp [State.carryOut, command]) (onlyChanges_refl _ _) (by simp)
  rw [Answer.checked_enough (Nat.zero_le _)] at hA
  subst hA
  refine ⟨t, s.statusBlock, executed, answer, only, ?_, ?_, ?_, ?_, ?_, ?state, ?_, ?_, ?_, ?_, fun l => ?level, ?_, ?_, ?_,
    ?_, ?_⟩
  case state =>
    rw [s.statusBlock_linkState]
    cases s.link.state <;> rfl
  case level =>
    obtain ⟨cells, wait⟩ := s.statusBlock_level l
    refine ⟨cells, fun empty => ?_, fun f rest queue => ?_⟩
    · rw [wait, State.headWait_empty empty]
    · rw [wait, State.headWait_head queue]
  all_goals simp [State.statusBlock, halfBytes, wordBytes, natHalf, fourIndices, flagBit,
    Config.vendorCode, Config.partCode, Config.revision, natByte]
end

section
/-! READ EVENTS and ACK EVENTS (R158, R159, R165, R181). -/

namespace Sys2Proof.Machine

/-- A command that has touched the notice latch alone, before its reply. -/
def Answer.latchOnly (s : State) (a : Answer) : Prop :=
  onlyChanges [.agent] s a.state ∧ a.state.agent = { s.agent with noticeLatch := a.state.agent.noticeLatch }

/-- A command that has touched the records of the Event Queue alone, before its reply. -/
def Answer.recordsOnly (s : State) (a : Answer) : Prop :=
  onlyChanges [.events] s a.state ∧ a.state.events.nextSeq = s.events.nextSeq

theorem Answer.refusal_latchOnly (status : Status) (s : State) : (refusal status s).latchOnly s :=
  ⟨onlyChanges_refl _ _, rfl⟩

theorem Answer.refusal_recordsOnly (status : Status) (s : State) : (refusal status s).recordsOnly s :=
  ⟨onlyChanges_refl _ _, rfl⟩

/-- The first argument byte, where there is one. -/
theorem byteAt_of_head? {bs : List Byte} {b : Byte} (first : bs.head? = some b) : byteAt bs 0 = b ∧ 1 ≤ bs.length := by
  obtain ⟨rest, rfl⟩ := List.head?_eq_some_iff.1 first
  exact ⟨rfl, by simp⟩

namespace State

variable {s : State} {r : Request} {p : Port} {args : List Byte}

/-! ### The answer and its reply (R158, R159) -/

/-- A command of the Agent with its request at the head of the queue sends its answer (R158, log 5). -/
theorem exec_sends {i : Instr} {code : Byte} {required : Nat} {a : Answer} (h : s.hasAtHead r p code)
    (executes : exec i s = .next (s.executeIf (Request.isLocal code.toNat)))
    (arguments : requiredArgs code r.args = some required) (carried : s.withoutHead.carryOut r = a.send r) :
    exec i s = .next ((a.checked s.withoutHead r required).send r) := by
  obtain ⟨-, ready, head, -, type, command⟩ := id h
  rw [executes, s.executeIf_head r _ ready head (Request.isLocal_of type command), executeHead_local h arguments carried]

/-- The reply after a command that may have cleared the notice latch (R165). -/
theorem send_replied_latch {a : Answer} (station : r.source = .station p) (latch : a.latchOnly s.withoutHead) :
    replied s s.counters a.state.agent.noticeLatch (a.send r) r p a.status a.results ∧
      onlyChanges [.rxPool, .egress, .agent, .counters] s (a.send r) := by
  obtain ⟨within, agent⟩ := latch
  have counters : a.state.counters = s.counters := within .counters (by decide)
  obtain ⟨sent, only⟩ := s.reply_replied a.state r p a.state.agent.noticeLatch a.status a.results station
    (within .rxPool (by decide)) (within .egress (by decide)) agent
  exact ⟨counters ▸ sent, onlyChanges_chain (onlyChanges_trans onlyChanges_withoutHead within) only (by decide)⟩

/-- The reply after a command that may have removed records leaves the Event Queue as the command did (R165). -/
theorem send_replied_records {a : Answer} (station : r.source = .station p) (records : a.recordsOnly s.withoutHead) :
    replied s s.counters s.agent.noticeLatch (a.send r) r p a.status a.results ∧
      onlyChanges [.events, .rxPool, .egress, .agent, .counters] s (a.send r) ∧ (a.send r).events = a.state.events := by
  obtain ⟨within, -⟩ := records
  have counters : a.state.counters = s.counters := within .counters (by decide)
  obtain ⟨sent, only⟩ := s.reply_replied a.state r p s.agent.noticeLatch a.status a.results station
    (within .rxPool (by decide)) (within .egress (by decide)) (within .agent (by decide))
  exact ⟨counters ▸ sent,
    onlyChanges_chain (onlyChanges_chain (changed := [.agent, .events]) onlyChanges_withoutHead within (by decide)) only
      (by decide), only .events (by decide)⟩

/-! ### READ EVENTS (R165) -/

theorem mapAgent_onlyChanges (f : Agent → Agent) : onlyChanges [.agent] s (s.mapAgent f) := by
  intro b hb
  cases b <;> first | exact absurd (by decide) hb | rfl

theorem carryReadEvents_inRange (inRange : 1 ≤ (byteAt args 0).toNat ∧ (byteAt args 0).toNat ≤ 8) :
    s.carryReadEvents args =
      { status := .ok
        results :=
          natByte (s.events.records.take (byteAt args 0).toNat).length ::
            (s.events.records.take (byteAt args 0).toNat).flatMap recordBytes
        state := s.mapAgent fun a => { a with noticeLatch := false } } := if_pos inRange

theorem carryReadEvents_outside (outside : (byteAt args 0).toNat = 0 ∨ 8 < (byteAt args 0).toNat) :
    s.carryReadEvents args = Answer.refusal .range s := if_neg (by omega)

theorem carryReadEvents_latchOnly (s : State) (args : List Byte) : (s.carryReadEvents args).latchOnly s := by
  by_cases inRange : 1 ≤ (byteAt args 0).toNat ∧ (byteAt args 0).toNat ≤ 8
  · rw [carryReadEvents_inRange inRange]
    exact ⟨mapAgent_onlyChanges _, rfl⟩
  · rw [carryReadEvents_outside (by omega)]
    exact Answer.refusal_latchOnly _ _

/-! ### ACK EVENTS (R165, R181) -/

theorem carryAckEvents_inRange
    (inRange : (byteAt args 0).toNat ≤ 32 ∧ (byteAt args 0).toNat ≤ s.events.records.length) :
    s.carryAckEvents args =
      { status := .ok
        results := [natByte (s.events.records.length - (byteAt args 0).toNat)]
        state := s.mapEvents fun q => { q with records := q.records.drop (byteAt args 0).toNat } } := if_pos inRange

theorem carryAckEvents_outside (outside : 32 < (byteAt args 0).toNat ∨ s.events.records.length < (byteAt args 0).toNat) :
    s.carryAckEvents args = Answer.refusal .range s := if_neg (by omega)

theorem carryAckEvents_recordsOnly (s : State) (args : List Byte) : (s.carryAckEvents args).recordsOnly s := by
  by_cases inRange : (byteAt args 0).toNat ≤ 32 ∧ (byteAt args 0).toNat ≤ s.events.records.length
  · rw [carryAckEvents_inRange inRange]
    exact ⟨mapEvents_onlyChanges _ _, rfl⟩
  · rw [carryAckEvents_outside (by omega)]
    exact Answer.refusal_recordsOnly _ _

end State
end Sys2Proof.Machine

open Sys2Proof Sys2Proof.Machine in
/-- Settles O44, each command by the first check that fails: the argument's presence, then its range. -/
theorem eventsAreReadAndAcknowledged : Obligations.EventsAreReadAndAcknowledged := by
  refine ⟨fun s r p h => ?_, fun s r p h => ?_⟩
  · obtain ⟨running, -, -, station, -, command⟩ := id h
    obtain ⟨A, hA⟩ : ∃ A, A = (s.withoutHead.carryReadEvents r.args).checked s.withoutHead r 1 := ⟨_, rfl⟩
    have executed : exec .readEvents s = .next (A.send r) := hA ▸
      State.exec_sends h (Laws.exec_readEvents s running) rfl (by simp [State.carryOut, command])
    have latch : A.latchOnly s.withoutHead := hA ▸
      Answer.checked_of (Answer.refusal_latchOnly _ _) (State.carryReadEvents_latchOnly _ _)
    obtain ⟨answer, only⟩ := State.send_replied_latch station latch
    refine ⟨A.send r, A.status, A.results, A.state.agent.noticeLatch, executed, answer, only, fun none => ?_,
      fun count first => ?_⟩
    · rw [hA, Answer.checked_short (by simp [none])]
      exact ⟨rfl, rfl, rfl⟩
    · obtain ⟨byte, enough⟩ := byteAt_of_head? first
      rw [hA, Answer.checked_enough enough, ← byte]
      refine ⟨fun least most => ?_, fun outside => ?_⟩
      · rw [State.carryReadEvents_inRange ⟨least, most⟩, List.length_take]
        exact ⟨rfl, rfl, rfl⟩
      · rw [State.carryReadEvents_outside outside]
        exact ⟨rfl, rfl, rfl⟩
  · obtain ⟨running, -, -, station, -, command⟩ := id h
    obtain ⟨A, hA⟩ : ∃ A, A = (s.withoutHead.carryAckEvents r.args).checked s.withoutHead r 1 := ⟨_, rfl⟩
    have executed : exec .ackEvents s = .next (A.send r) := hA ▸
      State.exec_sends h (Laws.exec_ackEvents s running) rfl (by simp [State.carryOut, command])
    have records : A.recordsOnly s.withoutHead := hA ▸
      Answer.checked_of (Answer.refusal_recordsOnly _ _) (State.carryAckEvents_recordsOnly _ _)
    obtain ⟨answer, only, events⟩ := State.send_replied_records station records
    refine ⟨A.send r, A.status, A.results, executed, answer, only, by rw [events]; exact records.2, fun none => ?_,
      fun count first => ?_⟩
    · rw [events, hA, Answer.checked_short (by simp [none])]
      exact ⟨rfl, rfl, rfl⟩
    · obtain ⟨byte, enough⟩ := byteAt_of_head? first
      rw [events, hA, Answer.checked_enough enough, ← byte]
      refine ⟨fun most held => ?_, fun outside => ?_⟩
      · rw [State.carryAckEvents_inRange (s := s.withoutHead) ⟨most, held⟩]
        exact ⟨rfl, rfl, rfl⟩
      · rw [State.carryAckEvents_outside (s := s.withoutHead) outside]
        exact ⟨rfl, rfl, rfl⟩
end

section
/-! PEER_DEADLINE_EXPIRY: the entry removed, its requester answered, the timeout counted and recorded (R159, R173). -/

namespace Sys2Proof.Machine.State

variable {s : State}

/-! ### The entry whose deadline has passed (R173) -/

/-- No other entry holds the local tag, so the entry of that tag is the one found and the one removed. -/
theorem peerExpired_found {e : PeerEntry} {older newer : List PeerEntry} (peers : s.agent.peers = older ++ e :: newer)
    (others : ∀ x ∈ older ++ newer, x.localTag ≠ e.localTag) (due : (s.now - e.deadline).toNat < 2 ^ 31) :
    s.peerExpired e.localTag = s.peerTimedOut e ∧ s.agent.peers.erase e = older ++ newer := by
  have before : ∀ x ∈ older, x.localTag ≠ e.localTag := fun x hx => others x (List.mem_append_left _ hx)
  have found : s.agent.peers.find? (fun x => decide (x.localTag = e.localTag)) = some e :=
    (find?_eq_some_split _ _ _).2 ⟨older, newer, peers, by simpa using before, by simp⟩
  have notOlder : e ∉ older := fun mem => before e mem rfl
  have passed : s.peerDue e = true := decide_eq_true due
  constructor
  · simp only [peerExpired, found, passed, if_true]
  · rw [peers, List.erase_append_right _ notOlder, List.erase_cons_head]

/-! ### The answer to a pending peer (R159) -/

/-- An answer carries no results, so one cell of the reserve holds it. -/
theorem reserveGrants_answer_iff (tag : Half) (command : Byte) (a : Status) :
    s.reserveGrants (replyBytes tag command a []).length ↔
      s.rxPool.reserve.freeDescs ≠ [] ∧ s.rxPool.reserve.freeCells ≠ [] := by
  rw [replyBytes_length, reserveGrants, ← List.length_pos_iff (l := s.rxPool.reserve.freeCells)]
  rfl

/-- A frame placed depends on the pool and the queues that it finds and leaves. -/
theorem reserveFramePlaced_congr {s' t t' : State} {p : Port} {n : Nat} {stream : Half} {payload : List Byte}
    (poolBefore : s'.rxPool = s.rxPool) (queuesBefore : s'.egress = s.egress) (poolAfter : t'.rxPool = t.rxPool)
    (queuesAfter : t'.egress = t.egress) (h : reserveFramePlaced s' t' p n stream payload) :
    reserveFramePlaced s t p n stream payload := by
  simpa only [reserveFramePlaced, poolBefore, queuesBefore, poolAfter, queuesAfter] using h

theorem answerPeer_onlyChanges (a : Status) (e : PeerEntry) :
    onlyChanges [.rxPool, .egress, .counters] s (answerPeer a s e) := by
  intro b hb
  cases b <;> first | exact absurd (by decide) hb | simp [Block.same]

theorem answerPeer_placed (a : Status) (e : PeerEntry) (descs : s.rxPool.reserve.freeDescs ≠ [])
    (cells : s.rxPool.reserve.freeCells ≠ []) :
    (answerPeer a s e).counters = s.counters.plusMgmt .replies ∧
      ∃ n, reserveFramePlaced s (answerPeer a s e) e.port n e.replyStream (replyBytes e.originalTag e.command a []) := by
  obtain ⟨n, t, placed, frame, only⟩ := s.placeReserve_of_grants e.port e.replyStream
    (replyBytes e.originalTag e.command a []) ((reserveGrants_answer_iff _ _ _).2 ⟨descs, cells⟩)
  have answered : answerPeer a s e = t.countMgmt .replies := by rw [answerPeer, localReply, placed]
  have counters : t.counters = s.counters := only .counters (by decide)
  rw [answered]
  exact ⟨congrArg (·.plusMgmt .replies) counters, n, frame⟩

theorem answerPeer_dropped (a : Status) (e : PeerEntry)
    (short : s.rxPool.reserve.freeDescs = [] ∨ s.rxPool.reserve.freeCells = []) :
    answerPeer a s e = s.countMgmt .repliesDropped := by
  have refused := s.placeReserve_of_not_grants e.port e.replyStream (replyBytes e.originalTag e.command a [])
    fun grants =>
      have ⟨descs, cells⟩ := (reserveGrants_answer_iff _ _ _).1 grants
      short.elim descs cells
  rw [answerPeer, localReply, refused]

/-- An answer counts as a reply, placed or dropped, and as nothing else of the management group. -/
theorem answerPeer_mgmtCounter (a : Status) (e : PeerEntry) {c : MgmtCounter} (notPlaced : c ≠ .replies)
    (notDropped : c ≠ .repliesDropped) : (answerPeer a s e).counters.mgmtAt c = s.counters.mgmtAt c := by
  by_cases short : s.rxPool.reserve.freeDescs = [] ∨ s.rxPool.reserve.freeCells = []
  · rw [answerPeer_dropped a e short, countMgmt_counters, CounterBank.mgmtAt_plusMgmt, if_neg notDropped]
  · obtain ⟨descs, cells⟩ := not_or.1 short
    rw [(answerPeer_placed a e descs cells).1, CounterBank.mgmtAt_plusMgmt, if_neg notPlaced]

/-! ### The timeout (R173) -/

theorem countMgmt_onlyChanges (c : MgmtCounter) : onlyChanges [.counters] s (s.countMgmt c) := by
  intro b hb
  cases b <;> first | exact absurd (by decide) hb | rfl

/-- The state in which the entry has left the table and its requester is answered. -/
def timeoutAnswered (s : State) (e : PeerEntry) : State :=
  answerPeer .peerTimeout (s.mapAgent fun a => { a with peers := a.peers.erase e }) e

theorem timeoutAnswered_onlyChanges (e : PeerEntry) :
    onlyChanges [.agent, .rxPool, .egress, .counters] s (s.timeoutAnswered e) :=
  onlyChanges_chain (mapAgent_onlyChanges _) (answerPeer_onlyChanges _ _) (by decide)

theorem peerTimedOut_eq (s : State) (e : PeerEntry) :
    s.peerTimedOut e =
      ((s.timeoutAnswered e).countMgmt .peerTimeouts).offerEvent .peerTimeout (.port e.port) none (e.localTag.setWidth 16) :=
  rfl

theorem peerTimedOut_counted (e : PeerEntry) : mgmtCounted s (s.peerTimedOut e) .peerTimeouts 1 := by
  rw [mgmtCounted, peerTimedOut_eq, offerEvent_mgmtCounter _ _ _ _ _ _ (by decide) (by decide), countMgmt_counters,
    CounterBank.mgmtAt_plusMgmt, if_pos rfl, timeoutAnswered, answerPeer_mgmtCounter _ _ (by decide) (by decide)]
  rfl

theorem peerTimedOut_recorded (e : PeerEntry) :
    recordAccepted s (s.peerTimedOut e) .peerTimeout (.port e.port) none (e.localTag.setWidth 16) := by
  have answered := timeoutAnswered_onlyChanges (s := s) e
  exact recordAccepted_congr (answered .events (by decide)) (answered .time (by decide)) rfl
    (((s.timeoutAnswered e).countMgmt .peerTimeouts).recordAccepted_offerEvent _ _ _ _)

theorem peerTimedOut_onlyChanges (e : PeerEntry) :
    onlyChanges [.agent, .rxPool, .egress, .counters, .events] s (s.peerTimedOut e) := by
  have answered := onlyChanges_chain (changed := [.agent, .rxPool, .egress, .counters]) (timeoutAnswered_onlyChanges (s := s) e)
    (countMgmt_onlyChanges .peerTimeouts) (by decide)
  exact onlyChanges_chain answered (offerEvent_onlyChanges _ _ _ _ _) (by decide)

/-- With notices off the record leaves the answer's frame and its count as they were. -/
theorem peerTimedOut_quiet (e : PeerEntry) (quiet : s.noNotices) :
    (s.peerTimedOut e).rxPool = (s.timeoutAnswered e).rxPool ∧ (s.peerTimedOut e).egress = (s.timeoutAnswered e).egress ∧
      (s.peerTimedOut e).counters = (s.timeoutAnswered e).counters.plusMgmt .peerTimeouts := by
  have config : (s.timeoutAnswered e).config = s.config := timeoutAnswered_onlyChanges e .config (by decide)
  obtain ⟨-, counters, rxPool, egress⟩ := ((s.timeoutAnswered e).countMgmt .peerTimeouts).offerEvent_quiet .peerTimeout
    (.port e.port) none (e.localTag.setWidth 16) (by simpa [noNotices, config] using quiet)
  exact ⟨rxPool, egress, counters⟩

/-- The answer placed in the reserve (R112, R159). -/
theorem peerTimedOut_placed (e : PeerEntry) (quiet : s.noNotices) (descs : s.rxPool.reserve.freeDescs ≠ [])
    (cells : s.rxPool.reserve.freeCells ≠ []) :
    mgmtCounted s (s.peerTimedOut e) .replies 1 ∧
      ∃ n, reserveFramePlaced s (s.peerTimedOut e) e.port n e.replyStream
        (replyBytes e.originalTag e.command .peerTimeout []) := by
  obtain ⟨rxPool, egress, counters⟩ := peerTimedOut_quiet e quiet
  obtain ⟨counted, n, frame⟩ := answerPeer_placed (s := s.mapAgent fun a => { a with peers := a.peers.erase e }) .peerTimeout e
    descs cells
  refine ⟨?_, n, ?_⟩
  · rw [mgmtCounted, counters, timeoutAnswered, counted]
    simp
  · exact reserveFramePlaced_congr rfl rfl rxPool.symm egress.symm frame

/-- The answer dropped and counted (R159). -/
theorem peerTimedOut_dropped (e : PeerEntry) (quiet : s.noNotices)
    (short : s.rxPool.reserve.freeDescs = [] ∨ s.rxPool.reserve.freeCells = []) :
    mgmtCounted s (s.peerTimedOut e) .repliesDropped 1 ∧
      onlyChanges [.agent, .counters, .events] s (s.peerTimedOut e) := by
  obtain ⟨rxPool, egress, counters⟩ := peerTimedOut_quiet e quiet
  have answered : s.timeoutAnswered e = (s.mapAgent fun a => { a with peers := a.peers.erase e }).countMgmt .repliesDropped :=
    answerPeer_dropped .peerTimeout e short
  rw [answered] at rxPool egress counters
  refine ⟨?_, fun b hb => ?_⟩
  · rw [mgmtCounted, counters]
    simp
  · have only := peerTimedOut_onlyChanges (s := s) e b
    cases b <;> first | exact absurd (by decide) hb | exact rxPool | exact egress | exact only (by decide)

end Sys2Proof.Machine.State

open Sys2Proof Sys2Proof.Machine in
/-- Settles O34: the entry found is the one of the tag; the answer takes the reserve's place or is dropped. -/
theorem peerExpiryAnswersTheRequester : Obligations.PeerExpiryAnswersTheRequester := by
  intro s e older newer rest peers others due
  obtain ⟨expired, removed⟩ := State.peerExpired_found peers others due
  refine ⟨s.peerTimedOut e, by rw [Laws.exec_peerDeadlineExpiry s _ rest, expired], ?_, ?_, ?_, State.peerTimedOut_counted e,
    State.peerTimedOut_recorded e, State.peerTimedOut_placed e, State.peerTimedOut_dropped e,
    State.peerTimedOut_onlyChanges e⟩
  · rw [← removed]
    simp [State.peerTimedOut]
  · simp [State.peerTimedOut]
  · simp [State.peerTimedOut]
end

section
/-! READ COUNTERS: the group returned, each counter at its position, and cleared when asked (R158, R159, R164, R185, R191). -/

namespace Sys2Proof.Machine

namespace CounterBank

variable (b : CounterBank)

/-! ### The groups (R185) -/

theorem group_unknown {group : Nat} (selector : Nat) (unknown : group = 0 ∨ 5 < group) : b.group group selector = none := by
  unfold CounterBank.group
  split
  · omega
  · omega
  · omega
  · omega
  · omega
  · rfl

theorem group_outOfRange {group selector : Nat}
    (outside : (group = 1 ∨ group = 2) ∧ 3 < selector ∨ group = 5 ∧ 511 < selector) :
    b.group group selector = none := by
  rcases outside with ⟨rfl | rfl, beyond⟩ | ⟨rfl, beyond⟩
  · exact dif_neg (by omega)
  · exact dif_neg (by omega)
  · exact if_neg (Nat.not_lt.2 beyond)

theorem group_port (p : Port) :
    b.group 1 p.val = some ((b.port.get p).toList, { b with port := b.port.set p (Vector.replicate 12 0#32) }) :=
  dif_pos p.isLt

theorem group_level (l : Level) :
    b.group 2 l.val = some ((b.level.get l).toList, { b with level := b.level.set l (Vector.replicate 22 0#32) }) :=
  dif_pos l.isLt

/-- The bank with some hit counters cleared (R164). -/
def clearHits (is : List Nat) : CounterBank := is.foldl (fun b i => b.setHit i 0#32) b

theorem group_hits {selector : Nat} (inRange : selector < 512) :
    b.group 5 selector = some ((hitIndices selector).map b.hit, b.clearHits (hitIndices selector)) := if_pos inRange

theorem clearHits_other (is : List Nat) : b.clearHits is = { b with hits := (b.clearHits is).hits } := by
  induction is generalizing b with
  | nil => rfl
  | cons i is ih => exact ih (b.setHit i 0#32)

theorem hit_clearHits (is : List Nat) (j : Nat) : (b.clearHits is).hit j = if j ∈ is then 0#32 else b.hit j := by
  induction is generalizing b with
  | nil => rfl
  | cons i is ih =>
    rw [show b.clearHits (i :: is) = (b.setHit i 0#32).clearHits is from rfl, ih, hit_setHit]
    by_cases later : j ∈ is
    · simp [later]
    · simp [later]

end CounterBank

/-- The hit counters returned: 16 from the selector, or those up to index 511 (R164). -/
theorem hitIndices_eq (selector : Nat) : hitIndices selector = List.range' selector (min 16 (512 - selector)) := rfl

/-- A command that has touched the counters alone, before its reply. -/
def Answer.countersOnly (s : State) (a : Answer) : Prop := onlyChanges [.counters] s a.state

theorem Answer.refusal_countersOnly (status : Status) (s : State) : (refusal status s).countersOnly s :=
  onlyChanges_refl _ _

namespace State

variable {s : State} {r : Request} {p : Port} {args : List Byte}

/-- The reply after a command that may have cleared counters is counted after the clearing (R164). -/
theorem send_replied_counters {a : Answer} (station : r.source = .station p) (counters : a.countersOnly s.withoutHead) :
    replied s a.state.counters s.agent.noticeLatch (a.send r) r p a.status a.results ∧
      onlyChanges [.rxPool, .egress, .agent, .counters] s (a.send r) := by
  obtain ⟨sent, only⟩ := s.reply_replied a.state r p s.agent.noticeLatch a.status a.results station
    (counters .rxPool (by decide)) (counters .egress (by decide)) (counters .agent (by decide))
  exact ⟨sent, onlyChanges_chain (onlyChanges_chain (changed := [.agent, .counters]) onlyChanges_withoutHead counters
    (by decide)) only (by decide)⟩

theorem mapCounters_onlyChanges (f : CounterBank → CounterBank) : onlyChanges [.counters] s (s.mapCounters f) := by
  intro b hb
  cases b <;> first | exact absurd (by decide) hb | rfl

theorem carryReadCounters_noGroup (none : s.counters.group (byteAt args 0).toNat (halfAt args 1).toNat = none) :
    s.carryReadCounters args = Answer.refusal .range s := by
  rw [carryReadCounters, none]

theorem carryReadCounters_badFlag (bad : 1 < (byteAt args 3).toNat) :
    s.carryReadCounters args = Answer.refusal .range s := by
  unfold carryReadCounters
  split
  · rfl
  · exact if_pos bad

/-- The answer of a group that is known, with its selector in range. -/
theorem carryReadCounters_group {values : List Count} {cleared : CounterBank}
    (found : s.counters.group (byteAt args 0).toNat (halfAt args 1).toNat = some (values, cleared))
    (flag : (byteAt args 3).toNat ≤ 1) :
    s.carryReadCounters args =
      { status := .ok
        results := args.take 3 ++ [BitVec.ofNat 8 values.length] ++ values.flatMap wordBytes
        state := s.mapCounters fun b => if (byteAt args 3).toNat = 1 then cleared else b } := by
  have isOne : byteAt args 3 = 1#8 ↔ (byteAt args 3).toNat = 1 := BitVec.toNat_inj.symm
  simp only [carryReadCounters, found, if_neg (Nat.not_lt.2 flag), isOne]
  split <;> rfl

theorem carryReadCounters_countersOnly (s : State) (args : List Byte) : (s.carryReadCounters args).countersOnly s := by
  by_cases flag : (byteAt args 3).toNat ≤ 1
  · cases found : s.counters.group (byteAt args 0).toNat (halfAt args 1).toNat with
    | none =>
      rw [carryReadCounters_noGroup found]
      exact Answer.refusal_countersOnly _ _
    | some g =>
      rw [carryReadCounters_group found flag]
      exact mapCounters_onlyChanges _
  · rw [carryReadCounters_badFlag (Nat.lt_of_not_le flag)]
    exact Answer.refusal_countersOnly _ _

end State
end Sys2Proof.Machine

open Sys2Proof Sys2Proof.Machine in
/-- Settles O43, by the first check that fails, and else by the group that is found. -/
theorem readCountersReturnsAndClearsOneGroup : Obligations.ReadCountersReturnsAndClearsOneGroup := by
  refine ⟨by decide, by decide, by decide, by decide, fun s r p group selector flag h hgroup hselector hflag => ?_⟩
  obtain ⟨running, -, -, station, -, command⟩ := id h
  obtain ⟨A, hA⟩ : ∃ A, A = (s.withoutHead.carryReadCounters r.args).checked s.withoutHead r 4 := ⟨_, rfl⟩
  have executed : exec .readCounters s = .next (A.send r) := hA ▸
    State.exec_sends h (Laws.exec_readCounters s running) rfl (by simp [State.carryOut, command])
  have counters : A.countersOnly s.withoutHead := hA ▸
    Answer.checked_of (Answer.refusal_countersOnly _ _) (State.carryReadCounters_countersOnly _ _)
  obtain ⟨answer, only⟩ := State.send_replied_counters station counters
  refine ⟨A.send r, A.status, A.results, A.state.counters, executed, answer, only, fun short => ?_, fun enough => ?_⟩
  · rw [hA, Answer.checked_short short]
    exact ⟨rfl, rfl, rfl⟩
  · have found {values : List Count} {cleared : CounterBank} (g : s.counters.group group selector = some (values, cleared))
        (known : flag ≤ 1) : A = _ :=
      hA.trans ((Answer.checked_enough enough).trans
        (State.carryReadCounters_group (s := s.withoutHead) (hgroup ▸ hselector ▸ g) (hflag ▸ known)))
    rw [← hflag] at found
    refine ⟨fun outside => ?_, fun hits inRange known k hk => ?_, fun values cleared known named => ?_⟩
    · have refused : A = Answer.refusal .range s.withoutHead := by
        rw [hA, Answer.checked_enough enough]
        by_cases bad : 1 < flag
        · exact State.carryReadCounters_badFlag (hflag ▸ bad)
        · refine State.carryReadCounters_noGroup ?_
          rw [← hgroup, ← hselector]
          by_cases unknown : group = 0 ∨ 5 < group
          · exact CounterBank.group_unknown _ _ unknown
          · exact CounterBank.group_outOfRange _ (by omega)
      rw [refused]
      exact ⟨rfl, rfl, rfl⟩
    · rw [hits] at found
      rw [found (s.counters.group_hits inRange) known, hitIndices_eq, ← hk]
      refine ⟨rfl, by simp, fun keep => if_neg (by omega), fun clear => ?_⟩
      · simp only [State.mapCounters_counters, clear, if_true]
        refine ⟨CounterBank.clearHits_other _ _, fun i => ?_⟩
        rw [CounterBank.hit_clearHits]
        simp only [List.mem_range'_1]
    · have g : s.counters.group group selector = some (values, cleared) := by
        rcases named with ⟨q, rfl, rfl, rfl, rfl⟩ | ⟨l, rfl, rfl, rfl, rfl⟩ | ⟨rfl, rfl, rfl⟩ | ⟨rfl, rfl, rfl⟩
        · exact s.counters.group_port q
        · exact s.counters.group_level l
        · rfl
        · rfl
      rw [found g known]
      exact ⟨rfl, rfl, rfl⟩
end

section
/-! SUPPORT. The Event Queue under the three rows of R180 and under an acknowledgement (R178, R180, R181): each keeps its
bounds and its sequence numbers. -/

namespace Sys2Proof.Machine

@[simp] theorem EventRecord.addLoss_kind (r : EventRecord) : r.addLoss.kind = r.kind := by
  unfold addLoss
  split <;> rfl

@[simp] theorem EventRecord.addLoss_sequence (r : EventRecord) : r.addLoss.sequence = r.sequence := by
  unfold addLoss
  split <;> rfl

/-- The count of refusals stops at 65535 and so never wraps to 0 (R180). -/
theorem EventRecord.addLoss_detail {r : EventRecord} (counted : r.detail ≠ 0#16) : r.addLoss.detail ≠ 0#16 := by
  unfold addLoss
  split
  · rename_i h
    obtain ⟨-, below⟩ := h
    show r.detail + 1#16 ≠ 0#16
    bv_omega
  · exact counted

namespace EventQueue

variable {q : EventQueue}

/-- Consecutive sequence numbers that end just before the event sequence counter (R178). -/
def numbered (q : EventQueue) : Prop :=
  ∀ (i : Nat) (h : i < q.records.length), (q.records[i]).sequence = q.nextSeq - BitVec.ofNat 16 (q.records.length - i)

theorem numbered.accept (h : q.numbered) {r : EventRecord} (number : r.sequence = q.nextSeq) : (q.accept r).numbered := by
  intro i (hi : i < (q.records ++ [r]).length)
  show (q.records ++ [r])[i].sequence = q.nextSeq + 1#16 - BitVec.ofNat 16 ((q.records ++ [r]).length - i)
  rw [List.length_append, List.length_singleton] at hi ⊢
  rcases Nat.lt_or_eq_of_le (Nat.le_of_lt_succ hi) with older | rfl
  · rw [List.getElem_append_left older, h i older, Nat.sub_add_comm (Nat.le_of_lt older), BitVec.ofNat_add]
    bv_omega
  · rw [List.getElem_concat_length rfl, Nat.add_sub_cancel_left, number]
    exact (BitVec.add_sub_cancel _ _).symm

theorem numbered.countLoss (h : q.numbered) : EventQueue.numbered { q with records := q.records.map (·.addLoss) } := by
  intro i hi
  simpa using h i (by simpa using hi)

theorem numbered.acknowledge (h : q.numbered) (n : Nat) : EventQueue.numbered { q with records := q.records.drop n } := by
  intro i hi
  rw [List.length_drop] at hi
  have number := h (n + i) (by omega)
  simpa [Nat.sub_sub] using number

/-- A record accepted while 30 or fewer are held is no loss record, and finds room among the ordinary ones. -/
theorem kept.accept_ordinary (h : q.kept) (room : q.records.length < 31) {r : EventRecord} (ordinary : r.kind ≠ .eventsLost)
    (number : r.sequence = q.nextSeq) : (q.accept r).kept := by
  obtain ⟨-, losses, counted, (numbers : q.numbered)⟩ := h
  refine ⟨?_, by simpa [EventQueue.accept, ordinary] using losses, fun x hx loss => ?_, numbers.accept number⟩
  · have places : (q.records ++ [r]).length ≤ 31 := by
      rw [List.length_append, List.length_singleton]
      exact room
    exact Nat.le_trans (List.length_filter_le _ _) places
  · rcases List.mem_append.1 hx with old | new
    · exact counted x old loss
    · exact absurd (List.mem_singleton.1 new ▸ loss) ordinary

/-- A loss record is accepted only where none is held. -/
theorem kept.accept_loss (h : q.kept) (none : ∀ x ∈ q.records, x.kind ≠ .eventsLost) {r : EventRecord}
    (isLoss : r.kind = .eventsLost) (one : r.detail = 1#16) (number : r.sequence = q.nextSeq) : (q.accept r).kept := by
  obtain ⟨ordinary, -, -, (numbers : q.numbered)⟩ := h
  refine ⟨by simpa [EventQueue.accept, isLoss] using ordinary, ?_, fun x hx loss => ?_, numbers.accept number⟩
  · have noLoss : q.records.filter (fun x => decide (x.kind = .eventsLost)) = [] := by simpa using none
    simp [EventQueue.accept, noLoss, isLoss]
  · rcases List.mem_append.1 hx with old | new
    · exact absurd loss (none x old)
    · rw [List.mem_singleton.1 new, one]
      decide

/-- A further refusal moves the loss record's count alone. -/
theorem kept.countLoss (h : q.kept) : EventQueue.kept { q with records := q.records.map (·.addLoss) } := by
  obtain ⟨ordinary, losses, counted, (numbers : q.numbered)⟩ := h
  refine ⟨by simpa [List.filter_map, Function.comp_def] using ordinary,
    by simpa [List.filter_map, Function.comp_def] using losses, fun x hx loss => ?_, numbers.countLoss⟩
  obtain ⟨y, hy, rfl⟩ := List.mem_map.1 hx
  exact EventRecord.addLoss_detail (counted y hy (by simpa using loss))

/-- An acknowledgement removes the oldest records (R181). -/
theorem kept.acknowledge (h : q.kept) (n : Nat) : EventQueue.kept { q with records := q.records.drop n } := by
  obtain ⟨ordinary, losses, counted, (numbers : q.numbered)⟩ := h
  have fewer (p : EventRecord → Bool) : ((q.records.drop n).filter p).length ≤ (q.records.filter p).length :=
    ((List.drop_sublist n q.records).filter p).length_le
  exact ⟨Nat.le_trans (fewer _) ordinary, Nat.le_trans (fewer _) losses,
    fun x hx => counted x (List.mem_of_mem_drop hx), numbers.acknowledge n⟩

/-! ### Any number of offers -/

/-- From one Event Queue another is reached by offers of records alone, each by one of the three rows of R180. -/
inductive offeredTo (q : EventQueue) : EventQueue → Prop
  | refl : offeredTo q q
  | accepted {u : EventQueue} {r : EventRecord} (before : offeredTo q u) (room : u.records.length < 31)
      (ordinary : r.kind ≠ .eventsLost) (number : r.sequence = u.nextSeq) : offeredTo q (u.accept r)
  | newLoss {u : EventQueue} {r : EventRecord} (before : offeredTo q u) (full : 31 ≤ u.records.length)
      (none : ∀ x ∈ u.records, x.kind ≠ .eventsLost) (isLoss : r.kind = .eventsLost) (one : r.detail = 1#16)
      (number : r.sequence = u.nextSeq) : offeredTo q (u.accept r)
  | countedLoss {u : EventQueue} (before : offeredTo q u) (full : 31 ≤ u.records.length)
      (held : ∃ x ∈ u.records, x.kind = .eventsLost) : offeredTo q { u with records := u.records.map (·.addLoss) }

theorem offeredTo.trans {u v : EventQueue} (first : q.offeredTo u) (second : u.offeredTo v) : q.offeredTo v := by
  induction second with
  | refl => exact first
  | accepted _ room ordinary number ih => exact ih.accepted room ordinary number
  | newLoss _ full none isLoss one number ih => exact ih.newLoss full none isLoss one number
  | countedLoss _ full held ih => exact ih.countedLoss full held

theorem offeredTo.kept {u : EventQueue} (h : q.offeredTo u) (hq : q.kept) : u.kept := by
  induction h with
  | refl => exact hq
  | accepted _ room ordinary number ih => exact ih.accept_ordinary room ordinary number
  | newLoss _ _ none isLoss one number ih => exact ih.accept_loss none isLoss one number
  | countedLoss _ _ _ ih => exact ih.countLoss

end EventQueue
end Sys2Proof.Machine
end

section
/-! SUPPORT. What each operation of the part does to the Event Queue: it offers records, or leaves the queue as it was (R178,
R180). An acknowledgement and the cold-start state of a restart are the only other ways to change it (R179, R181). -/

namespace Sys2Proof.Machine.State

variable {s t u : State}

/-- Between two states the Event Queue has been offered records, and nothing else has been done to it. -/
def offersOnly (s t : State) : Prop := s.events.offeredTo t.events

theorem offersOnly.refl (s : State) : s.offersOnly s := EventQueue.offeredTo.refl

theorem offersOnly_of_same (same : t.events = s.events) : s.offersOnly t := by
  rw [offersOnly, same]
  exact EventQueue.offeredTo.refl

theorem offersOnly.trans (first : s.offersOnly u) (second : u.offersOnly t) : s.offersOnly t :=
  EventQueue.offeredTo.trans first second

/-- What follows the offers leaves the queue. -/
theorem offersOnly.then_same (h : s.offersOnly u) (same : t.events = u.events) : s.offersOnly t :=
  h.trans (offersOnly_of_same same)

/-- What precedes the offers leaves the queue. -/
theorem offersOnly.after_same (h : u.offersOnly t) (same : u.events = s.events) : s.offersOnly t :=
  (offersOnly_of_same same).trans h

/-- One record offered, of any kind but that of the loss record (R180). -/
theorem offerEvent_offersOnly (k : EventKind) (b : Subject) (n : Option Half) (d : Half) (ordinary : k ≠ .eventsLost) :
    s.offersOnly (s.offerEvent k b n d) := by
  by_cases room : s.events.records.length < 31
  · rw [offersOnly, s.offerEvent_accepted k b n d room]
    exact .accepted .refl room ordinary rfl
  · have full : 31 ≤ s.events.records.length := Nat.le_of_not_lt room
    by_cases held : ∃ x ∈ s.events.records, x.kind = .eventsLost
    · rw [s.offerEvent_countedLoss k b n d full held]
      exact .countedLoss .refl full held
    · have none : ∀ x ∈ s.events.records, x.kind ≠ .eventsLost := fun x hx loss => held ⟨x, hx, loss⟩
      rw [offersOnly, s.offerEvent_newLoss k b n d full none]
      exact .newLoss .refl full none rfl rfl rfl

/-- A record offered to a queue that nothing has touched since. -/
theorem offerEvent_offersOnly_of_same (k : EventKind) (b : Subject) (n : Option Half) (d : Half)
    (same : u.events = s.events) (ordinary : k ≠ .eventsLost) : s.offersOnly (u.offerEvent k b n d) :=
  (offerEvent_offersOnly k b n d ordinary).after_same same

/-! ### Failed claims and management payloads (R106, R118, R156, R172) -/

theorem txClaimFailed_offersOnly (b : Subject) (n : Nat) : s.offersOnly (s.txClaimFailed b n) := by
  unfold txClaimFailed
  split
  · exact .refl s
  · exact offerEvent_offersOnly_of_same _ _ _ _ rfl (by decide)

theorem rxClaimFailed_offersOnly (l : Level) (h : Half) (n : Nat) : s.offersOnly (s.rxClaimFailed l h n) := by
  unfold rxClaimFailed
  split
  · exact .refl s
  · exact offerEvent_offersOnly_of_same _ _ _ _ rfl (by decide)

theorem dropPayload_offersOnly (b : Subject) (r : DropReason) : s.offersOnly (s.dropPayload b r) :=
  offerEvent_offersOnly_of_same _ _ _ _ (by simp) (by decide)

theorem stationPayload_offersOnly (p : Port) (bs : List Byte) : s.offersOnly (s.stationPayload p bs) := by
  unfold stationPayload
  split
  · exact dropPayload_offersOnly _ _
  · exact .refl s
  · exact offersOnly_of_same (by simp)

theorem peerReply_offersOnly (n : Nat) (bs : List Byte) : s.offersOnly (s.peerReply n bs) := by
  unfold peerReply
  split
  · exact offerEvent_offersOnly_of_same _ _ _ _ (by simp) (by decide)
  · exact offersOnly_of_same (by simp)

theorem trunkPayload_offersOnly (n : Nat) (bs : List Byte) : s.offersOnly (s.trunkPayload n bs) := by
  unfold trunkPayload
  split
  · exact (dropPayload_offersOnly _ _).after_same (by simp)
  · exact peerReply_offersOnly n bs
  · exact offersOnly_of_same (by simp)

/-! ### Delivery and the Reassembler (R48 to R62, R121) -/

theorem deliver_offersOnly (n : Nat) : s.offersOnly (s.deliver n) := by
  unfold deliver
  split
  · exact .refl s
  · split
    · exact (trunkPayload_offersOnly n _).after_same rfl
    · exact offersOnly_of_same (by simp)

theorem handOff_offersOnly (l : Level) (n : Nat) : s.offersOnly (s.handOff l n) :=
  (deliver_offersOnly n).after_same (by simp)

theorem recordAbort_offersOnly (l : Level) (h : Half) (r : AbortReason) : s.offersOnly (s.recordAbort l h r) :=
  offerEvent_offersOnly_of_same _ _ _ _ (by simp) (by decide)

theorem abortEntries_offersOnly (r : AbortReason) (es : List RxEntry) : s.offersOnly (es.foldl (abortEntry r) s) := by
  induction es generalizing s with
  | nil => exact .refl s
  | cons e es ih =>
    have aborted : s.offersOnly (abortEntry r s e) := (recordAbort_offersOnly _ _ _).after_same (by simp)
    exact aborted.trans ih

theorem abortWhere_offersOnly (named : RxEntry → Bool) (r : AbortReason) : s.offersOnly (s.abortWhere named r) :=
  (abortEntries_offersOnly r _).after_same (by simp)

theorem cellRefused_offersOnly (l : Level) (h q : Half) : s.offersOnly (s.cellRefused l h q) := by
  unfold cellRefused
  split
  · exact rxClaimFailed_offersOnly l h 2
  · exact offerEvent_offersOnly_of_same _ _ _ _ (by simp) (by decide)

theorem startFrame_offersOnly (d : RxData) : s.offersOnly (s.startFrame d) := by
  unfold startFrame
  split
  · exact (rxClaimFailed_offersOnly _ _ _).after_same (by simp)
  · dsimp only
    split
    · exact (cellRefused_offersOnly _ _ _).after_same (by simp)
    · rename_i stored
      obtain ⟨p, -, -, rfl⟩ := storeCell_eq _ _ _ _ stored
      exact offersOnly_of_same (by simp)

theorem wholeFrame_offersOnly (d : RxData) : s.offersOnly (s.wholeFrame d) := by
  unfold wholeFrame
  split
  · exact (rxClaimFailed_offersOnly _ _ _).trans (recordAbort_offersOnly _ _ _)
  · split
    · exact (cellRefused_offersOnly _ _ _).trans (recordAbort_offersOnly _ _ _)
    · rename_i stored
      obtain ⟨p, -, -, rfl⟩ := storeCell_eq _ _ _ _ stored
      exact (handOff_offersOnly _ _).after_same (by simp)

theorem storeSegment_offersOnly (e : RxEntry) (d : RxData) : s.offersOnly (s.storeSegment e d).1 := by
  unfold storeSegment
  split
  · exact offersOnly_of_same (by simp)
  · split
    · exact (cellRefused_offersOnly d.level e.stream d.seq).then_same (by simp)
    · rename_i found
      obtain ⟨n, -, stored⟩ := Option.bind_eq_some_iff.mp found
      obtain ⟨p, -, -, rfl⟩ := storeCell_eq _ _ _ _ stored
      exact offersOnly_of_same (by simp)

theorem completeFrame_offersOnly (e : RxEntry) : s.offersOnly (s.completeFrame e) := by
  unfold completeFrame
  dsimp only
  split
  · exact offersOnly_of_same (by simp)
  · exact (handOff_offersOnly _ _).after_same (by simp)

theorem matchedSegment_offersOnly (e : RxEntry) (d : RxData) : s.offersOnly (s.matchedSegment e d) := by
  have stored := storeSegment_offersOnly (s := s) e d
  unfold matchedSegment
  dsimp only
  split
  · split
    · exact abortWhere_offersOnly _ _
    · exact .refl s
  · split <;> rename_i q <;> rw [q] at stored
    · split
      · exact stored.trans (abortWhere_offersOnly _ _)
      · exact stored
    · split
      · split
        · exact stored.trans (completeFrame_offersOnly e)
        · exact stored.trans (abortWhere_offersOnly _ _)
      · exact stored

theorem continueFrame_offersOnly (d : RxData) : s.offersOnly (s.continueFrame d) := by
  unfold continueFrame
  split
  · exact offersOnly_of_same (by simp)
  · have above : s.offersOnly (s.abortAbove d.level) := abortWhere_offersOnly _ _
    dsimp only
    split
    · exact above.trans (matchedSegment_offersOnly _ d)
    · have aborted : s.offersOnly ((s.abortAbove d.level).abortAt d.level .tagMismatch) :=
        above.trans (abortWhere_offersOnly _ _)
      exact aborted.then_same (by simp)

theorem kindRule_offersOnly (d : RxData) : s.offersOnly (s.kindRule d) := by
  unfold kindRule
  split
  · exact (abortWhere_offersOnly _ _).trans (startFrame_offersOnly d)
  · exact (abortWhere_offersOnly _ _).trans (wholeFrame_offersOnly d)
  · exact continueFrame_offersOnly d
  · exact continueFrame_offersOnly d

theorem reassemble_offersOnly (d : RxData) : s.offersOnly (s.reassemble d) := by
  unfold reassemble
  dsimp only
  split
  · exact (kindRule_offersOnly d).after_same (by simp)
  · split
    · exact (kindRule_offersOnly d).after_same (by simp)
    · exact offersOnly_of_same (by simp)

/-! ### The link: entry to UP, DOWN events, segments on arrival (R40, R62, R70 to R80) -/

theorem txTeardown_offersOnly : s.offersOnly s.txTeardown := by
  unfold txTeardown fourIndices
  dsimp only [List.foldl]
  split
  · exact offersOnly_of_same (by simp)
  · exact offerEvent_offersOnly_of_same _ _ _ _ (by simp) (by decide)

theorem linkDown_offersOnly (cause : LinkCause) : s.offersOnly (s.linkDown cause) := by
  unfold linkDown
  split
  · exact .refl s
  · dsimp only
    refine .trans ?_ txTeardown_offersOnly
    refine .then_same (u := State.abortWhere _ _ _) ?_ rfl
    exact (offerEvent_offersOnly_of_same _ _ _ _ (by simp) (by decide)).trans (abortWhere_offersOnly _ _)

theorem enterUp_offersOnly : s.offersOnly s.enterUp :=
  offerEvent_offersOnly_of_same _ _ _ _ (by simp [fourIndices]) (by decide)

theorem takeUp_offersOnly (g : GoodSegment) : s.offersOnly (s.takeUp g) := by
  cases g with
  | data d => exact (reassemble_offersOnly d).then_same (by simp [takeUp])
  | control limits => exact offersOnly_of_same (by simp [takeUp])
  | hello heardYou limits => exact .refl s

theorem enterUpWith_offersOnly (g : GoodSegment) : s.offersOnly (s.enterUpWith g) := by
  have entered : s.offersOnly s.enterUp.countEntrySegment.useFree := enterUp_offersOnly.then_same (by simp)
  unfold enterUpWith
  dsimp only
  split
  · exact (entered.then_same (by simp)).trans (takeUp_offersOnly g)
  · exact (entered.trans (takeUp_offersOnly g)).then_same (by simp)

theorem goodInHello_offersOnly (g : GoodSegment) : s.offersOnly (s.goodInHello g) := by
  unfold goodInHello
  split
  · split
    · rename_i limits _
      have entered : s.offersOnly (s.storeHello limits).enterUp := enterUp_offersOnly.after_same rfl
      exact entered.then_same (by simp [enterUpAtHello])
    · exact offersOnly_of_same (by simp)
  · split
    · exact enterUpWith_offersOnly _
    · exact .refl s
  · split
    · exact enterUpWith_offersOnly _
    · exact .refl s

theorem goodInUp_offersOnly (g : GoodSegment) : s.offersOnly (s.goodInUp g) := by
  unfold goodInUp
  dsimp only
  split
  · split
    · exact offersOnly_of_same rfl
    · exact (linkDown_offersOnly _).after_same rfl
  · exact (takeUp_offersOnly _).after_same rfl
  · exact (takeUp_offersOnly _).after_same rfl

theorem goodSegment_offersOnly (g : GoodSegment) : s.offersOnly (s.goodSegment g) := by
  unfold goodSegment
  dsimp only
  split
  · exact offersOnly_of_same (by cases g <;> rfl)
  · exact (goodInHello_offersOnly g).after_same (by cases g <;> rfl)
  · exact (goodInUp_offersOnly g).after_same (by cases g <;> rfl)

theorem badSegment_offersOnly : s.offersOnly s.badSegment := by
  unfold badSegment
  dsimp only
  split
  · split
    · exact (linkDown_offersOnly _).after_same rfl
    · exact offersOnly_of_same rfl
  · exact offersOnly_of_same rfl

theorem linkAction_offersOnly (a : LinkAction) : s.offersOnly (s.linkAction a) := by
  cases a with
  | drop =>
    simp only [linkAction, linkDrop]
    split
    · split <;> exact offersOnly_of_same rfl
    · exact linkDown_offersOnly _
  | hold =>
    simp only [linkAction, linkHold]
    split
    · exact offersOnly_of_same rfl
    · exact (linkDown_offersOnly _).after_same rfl
  | release => exact offersOnly_of_same (by simp [linkAction])

/-- A TRAFFIC restart keeps the Event Queue and offers RESTART (R176, R177, R179). -/
theorem restartTraffic_offersOnly : s.offersOnly s.restartTraffic :=
  offerEvent_offersOnly_of_same _ _ _ _ (by simp [clearTraffic, apply_ite State.events]) (by decide)

/-! ### Replies (R159, R160) -/

theorem sendTrunk_offersOnly (o : Origin) (bs : List Byte) : s.offersOnly (s.sendTrunk o bs).1 := by
  unfold sendTrunk
  split
  · exact (txClaimFailed_offersOnly _ _).after_same (by simp)
  · exact offersOnly_of_same (by simp)

theorem trunkReply_offersOnly (g : Half) (bs : List Byte) : s.offersOnly (s.trunkReply g bs).1 := by
  have sent := sendTrunk_offersOnly (s := s) .trunkReply bs
  unfold trunkReply
  split
  · split <;> rename_i q <;> rw [q] at sent <;> exact sent.then_same (by simp)
  · exact offersOnly_of_same (by simp)

theorem reply_offersOnly (r : Request) (status : Status) (results : List Byte) :
    s.offersOnly (s.reply r status results).1 := by
  unfold reply
  split
  · exact offersOnly_of_same (by simp)
  · exact trunkReply_offersOnly _ _

/-! ### The station ports and the timers (R32, R94 to R97, R148, R173) -/

theorem takeRise_offersOnly (p : Port) : s.offersOnly (s.takeRise p) := by
  have begun : s.offersOnly (s.beginFrame p) := by
    unfold beginFrame
    split
    · exact (txClaimFailed_offersOnly _ _).after_same rfl
    · exact offersOnly_of_same rfl
  unfold takeRise
  split
  · exact begun
  · exact begun
  · exact .refl s
  · exact .refl s

theorem takeByte_offersOnly (p : Port) (b : Byte) : s.offersOnly (s.takeByte p b) := by
  have payload (r : Spr) (n : Nat) : s.offersOnly (s.payloadByte p r n b) := by
    unfold payloadByte dropNoBuffer
    split
    · exact offersOnly_of_same rfl
    · split
      · exact offersOnly_of_same rfl
      · split
        · exact (txClaimFailed_offersOnly _ _).after_same (u := s.setSpr p (Spr.cleared (.dropping .noBuffer))) rfl
        · exact offersOnly_of_same rfl
  unfold takeByte
  dsimp only
  split
  · split
    · exact offersOnly_of_same rfl
    · split
      · exact payload _ _
      · exact offersOnly_of_same rfl
  · exact .refl s
  · exact .refl s
  · exact .refl s

theorem userFrame_offersOnly (p : Port) (r : Spr) (n : Nat) : s.offersOnly (s.userFrame p r n) := by
  have treated (u : State) (c : Classified) : u.offersOnly (u.treatFrame p r n c) := by
    unfold treatFrame
    split
    · exact offersOnly_of_same rfl
    · split
      · exact offersOnly_of_same (by simp)
      · exact offersOnly_of_same rfl
  unfold userFrame
  refine (treated _ _).after_same ?_
  split <;> rfl

theorem takeFall_offersOnly (p : Port) : s.offersOnly (s.takeFall p) := by
  unfold takeFall
  dsimp only
  split
  · exact .refl s
  · exact offersOnly_of_same rfl
  · exact offersOnly_of_same rfl
  · refine .after_same (u := (s.setSpr p (Spr.cleared .idle)).countPort p .framesIn) ?_ rfl
    unfold endFrame
    split
    · exact offersOnly_of_same rfl
    · unfold managementFrame
      split
      · exact (stationPayload_offersOnly _ _).after_same rfl
      · exact offersOnly_of_same rfl
    · exact userFrame_offersOnly p _ _

theorem suspensionExpired_offersOnly (l : Level) : s.offersOnly (s.suspensionExpired l) := by
  unfold suspensionExpired
  split
  · exact .refl s
  · split
    · exact offerEvent_offersOnly_of_same _ _ _ _ (by simp) (by decide)
    · exact .refl s

theorem peerExpired_offersOnly (tag : Byte) : s.offersOnly (s.peerExpired tag) := by
  unfold peerExpired
  split
  · exact .refl s
  · split
    · exact offerEvent_offersOnly_of_same _ _ _ _ (by simp) (by decide)
    · exact .refl s

theorem copyBackDone_offersOnly : s.offersOnly s.copyBackDone :=
  offerEvent_offersOnly_of_same _ _ _ _ (by simp) (by decide)

end Sys2Proof.Machine.State
end

section
/-! The Event Queue's invariant, from what each operation offers, for the executions and the events of the part (R178 to
R181). -/

namespace Sys2Proof.Machine.State

variable {s : State}

/-- Offers keep the Event Queue. -/
theorem offersOnly.keepsEvents {t : State} (h : s.offersOnly t) (hs : s.events.kept) : t.events.kept :=
  EventQueue.offeredTo.kept h hs

/-! ### Restarts and deferred commands (R167 to R169, R179) -/

/-- A cold part holds the RESTART record alone (R179, R188). -/
theorem restarted_keepsEvents (pins : Pins) (signal : Bool) (cause : RestartCause) (trunkTx : TrunkTx)
    (egress : Four EgressPort) (n : Nat) (q : List Instr) :
    (restarted pins signal cause trunkTx egress n q).events.kept := by
  have empty : EventQueue.kept { records := [], nextSeq := 0#16 } := by simp [EventQueue.kept]
  have record := empty.accept_ordinary (r := restartRecord cause) (Nat.zero_lt_succ _) (by simp [restartRecord]) rfl
  simpa [EventQueue.accept] using record

theorem applyCommand_keepsEvents (c : DeferredCommand) (h : s.events.kept) : (s.applyCommand c).events.kept := by
  cases c with
  | linkControl a => exact (linkAction_offersOnly a).keepsEvents h
  | restart k =>
    cases k with
    | traffic => exact restartTraffic_offersOnly.keepsEvents h
    | full => exact restarted_keepsEvents _ _ _ _ _ _ _

theorem replyLeft_keepsEvents (left : AwaitedReply) (h : s.events.kept) : (s.replyLeft left).events.kept := by
  unfold replyLeft
  split
  · exact h
  · split
    · exact applyCommand_keepsEvents _ h
    · exact h

theorem releaseIfDown_keepsEvents (before : State) (h : s.events.kept) : (releaseIfDown before s).events.kept := by
  unfold releaseIfDown commandOnDown
  split
  · split
    · exact h
    · exact h
    · exact applyCommand_keepsEvents _ h
  · exact h

/-! ### The execution of requests (R158 to R171) -/

theorem deferCommand_keepsEvents (r : Request) (c : Option DeferredCommand) (h : s.events.kept) :
    (s.deferCommand r c).events.kept := by
  cases c with
  | none => exact (reply_offersOnly r .range []).keepsEvents h
  | some c =>
    have replied := (reply_offersOnly r .ok []).keepsEvents h
    simp only [deferCommand]
    cases (s.reply r .ok []).2 with
    | none => exact applyCommand_keepsEvents c replied
    | some awaited => exact replied

/-- ACK EVENTS removes records from the head of the queue (R165, R181). -/
theorem carryAckEvents_keepsEvents (args : List Byte) (h : s.events.kept) : (s.carryAckEvents args).state.events.kept := by
  by_cases inRange : (byteAt args 0).toNat ≤ 32 ∧ (byteAt args 0).toNat ≤ s.events.records.length
  · rw [carryAckEvents_inRange inRange]
    exact h.acknowledge _
  · rw [carryAckEvents_outside (by omega)]
    exact h

theorem carryOut_keepsEvents (r : Request) (h : s.events.kept) : (s.carryOut r).events.kept := by
  have sent (a : Answer) (ha : a.state.events.kept) : (a.send r).events.kept := (reply_offersOnly r _ _).keepsEvents ha
  unfold carryOut
  split
  · exact sent _ h
  · exact sent _ (by rwa [carryReadEntries_state])
  · exact sent _ h
  · exact sent _ h
  · exact sent _ h
  · exact sent _ (by rwa [carryReadCounters_countersOnly s _ .events (by decide)])
  · exact sent _ (by rwa [(carryReadEvents_latchOnly s _).1 .events (by decide)])
  · exact sent _ (carryAckEvents_keepsEvents _ h)
  · refine sent _ ?_
    unfold carryFlushLevel
    split
    · exact h
    · simpa using h
  · exact deferCommand_keepsEvents r _ h
  · exact deferCommand_keepsEvents r _ h

theorem forward_keepsEvents (r : Request) (p : Port) (h : s.events.kept) : (s.forward r p).events.kept := by
  have refused (u : State) (status : Status) (hu : u.events.kept) : (u.refuse r status).events.kept :=
    (reply_offersOnly r status []).keepsEvents hu
  have sent := (sendTrunk_offersOnly .forwardedRequest (r.relayed (s.newPeer r p).localTag)).keepsEvents h
  unfold forward
  split
  · exact refused s _ h
  · split
    · exact refused s _ h
    · dsimp only
      split <;> rename_i q <;> rw [q] at sent
      · exact refused _ _ sent
      · exact sent

theorem executeLocal_keepsEvents (r : Request) (h : s.events.kept) : (s.executeLocal r).events.kept := by
  unfold executeLocal
  split
  · exact (reply_offersOnly r _ _).keepsEvents h
  · split
    · exact (reply_offersOnly r _ _).keepsEvents h
    · exact carryOut_keepsEvents r h

theorem executeHead_keepsEvents (r : Request) (h : s.events.kept) : (s.executeHead r).events.kept := by
  have taken : (s.mapAgent fun a => { a with requests := a.requests.tail }).events.kept := h
  unfold executeHead executeRequest
  split
  · split
    · exact (reply_offersOnly r _ _).keepsEvents taken
    · split
      · exact (reply_offersOnly r _ _).keepsEvents taken
      · exact executeLocal_keepsEvents r taken
  · split
    · exact forward_keepsEvents r _ taken
    · exact executeLocal_keepsEvents r taken

/-! ### The events that may release a deferred command (R169) -/

theorem lineSymbol_keepsEvents (how : ReceptionEnd) (h : s.events.kept) : (s.lineSymbol how).events.kept := by
  have opened (t : State) (ht : t.events.kept) : (t.openReception how).events.kept := by cases how <;> exact ht
  unfold lineSymbol
  split
  · exact opened s h
  · refine opened _ (releaseIfDown_keepsEvents s ?_)
    unfold reportSegment
    split
    · exact badSegment_offersOnly.keepsEvents h
    · exact (goodSegment_offersOnly _).keepsEvents h

theorem signalLost_keepsEvents (h : s.events.kept) : s.signalLost.events.kept := by
  unfold signalLost
  dsimp only
  split
  · exact h
  · exact releaseIfDown_keepsEvents _ ((linkDown_offersOnly _).keepsEvents h)

theorem transmissionDone_keepsEvents (h : s.events.kept) : s.transmissionDone.events.kept := by
  have completed (g : Segment) : (s.segmentCompleted g).events.kept := by simpa using h
  unfold transmissionDone
  split
  · exact h
  · rename_i g _
    split
    · simpa using completed g
    · simpa using replyLeft_keepsEvents _ (completed g)

theorem egressCompleted_keepsEvents (p : Port) (h : s.events.kept) : (s.egressCompleted p).events.kept := by
  unfold egressCompleted
  split
  · exact replyLeft_keepsEvents _ (by simpa using h)
  · exact h
  · exact h
  · exact h

/-- An event that is taken when a condition holds. -/
theorem ite_keepsEvents {c : Prop} [Decidable c] {t u : State} (ht : t.events.kept) (hu : u.events.kept) :
    (if c then t else u).events.kept := by
  split
  · exact ht
  · exact hu

theorem eventRunning_keepsEvents (c : Instr) (h : s.events.kept) : (eventRunning c s).events.kept := by
  cases c with
  | lineSignalLoss => exact ite_keepsEvents (signalLost_keepsEvents h) h
  | lineSignalReturn =>
    refine ite_keepsEvents h ?_
    unfold signalBack
    exact ite_keepsEvents (by simpa [setSignal] using h) h
  | segmentReceptionEnd how => exact lineSymbol_keepsEvents how h
  | startDelimiterArrival => exact lineSymbol_keepsEvents _ h
  | frameValidRise p => exact ite_keepsEvents h ((takeRise_offersOnly p).keepsEvents h)
  | stationByteReceived p b => exact ite_keepsEvents ((takeByte_offersOnly p b).keepsEvents h) h
  | frameValidFall p => exact ite_keepsEvents ((takeFall_offersOnly p).keepsEvents h) h
  | transmissionCompletion => exact transmissionDone_keepsEvents h
  | holdOffExpiry => exact ite_keepsEvents (by simpa using h) h
  | helloDeadlineExpiry => exact ite_keepsEvents (by simpa [nextHello] using h) h
  | silenceDeadlineExpiry =>
    exact ite_keepsEvents (releaseIfDown_keepsEvents s ((linkDown_offersOnly _).keepsEvents h)) h
  | keepaliveDeadlineExpiry => exact ite_keepsEvents (by simpa [keepalive] using h) h
  | advanceDeadlineExpiry l => exact ite_keepsEvents (by simpa [advanceAged] using h) h
  | suspensionDeadlineExpiry l => exact (suspensionExpired_offersOnly l).keepsEvents h
  | ageDeadlineExpiry l => exact ite_keepsEvents (by simpa [ageAt] using h) h
  | peerDeadlineExpiry tag => exact (peerExpired_offersOnly tag).keepsEvents h
  | copyBackCompletion => exact ite_keepsEvents (copyBackDone_offersOnly.keepsEvents h) h
  | egressCompletion p => exact egressCompleted_keepsEvents p h
  | _ => exact h

/-- The Event Queue is kept by everything the part can do. -/
theorem eventsKept_keptBySteps : KeptBySteps fun s => s.events.kept where
  queue _ _ _ h := h
  resetAsserted _ _ _ h := h
  coldStart _ _ := restarted_keepsEvents _ _ _ _ _ _ _
  supplyLost _ h := h
  execution _ r h _ := executeHead_keepsEvents r h
  held c _ h := by cases c <;> exact h
  event c _ h := eventRunning_keepsEvents c h
  tick _ h := h

end Sys2Proof.Machine.State

/-- Settles O51, by the induction over every kind of step. -/
theorem everyStepKeepsTheEventQueue : Obligations.EveryStepKeepsTheEventQueue :=
  fun _ _ h e => Sys2Proof.Machine.State.eventsKept_keptBySteps.step h e
end

section
/-! The notice check of an accepted record: a NOTICE sent, counted as dropped, or not due (R112, R180, R182, R183, R193). -/

namespace Sys2Proof.Machine

/-- The 19 bytes of a NOTICE, field by field (R183, R193). -/
theorem noticeBytes_eq (r : EventRecord) :
    noticeBytes r =
      [0#8, 0#8, 3#8] ++ halfBytes r.sequence ++ wordBytes r.time ++
        [BitVec.ofNat 8 r.kind.code, BitVec.ofNat 8 r.kind.severity.code, r.subject.code,
          if r.stream.isSome then 0x80#8 else 0#8] ++
        halfBytes (r.stream.getD 0#16) ++ halfBytes r.detail ++ [0#8, 0#8] := by
  simp only [noticeBytes, recordBytes, List.append_assoc]
  rfl

/-- The NOTICE of a COMMIT_DONE: kind 9, severity INFO, no subject and no stream (R193). -/
theorem noticeBytes_commitDone (sequence : Half) (time : Time) (generation : Half) :
    noticeBytes
        { sequence := sequence, time := time, kind := .commitDone, subject := .none, stream := none, detail := generation } =
      [0#8, 0#8, 3#8] ++ halfBytes sequence ++ wordBytes time ++ [9#8, 1#8, 0#8, 0#8, 0#8, 0#8] ++ halfBytes generation ++
        [0#8, 0#8] := by
  simp [noticeBytes, recordBytes, halfBytes, EventKind.code, EventKind.severity, Severity.code, Subject.code, flagBit]

theorem noticeBytes_length (r : EventRecord) : (noticeBytes r).length = 19 := by
  simp [noticeBytes, recordBytes, halfBytes, wordBytes]

namespace State

variable {s : State} {r : EventRecord}

/-! ### Whether a NOTICE is due, and whether the reserve grants it (R112, R183) -/

theorem noticeDue_iff {k : EventKind} :
    s.noticeDue k = true ↔
      s.config.active.part.noticeEnabled = true ∧ s.config.active.part.noticeThreshold.code ≤ k.severity.code ∧
        s.agent.noticeLatch = false := by
  simp [noticeDue, and_assoc]

/-- One cell holds a NOTICE. -/
theorem reserveGrants_notice_iff (r : EventRecord) :
    s.reserveGrants (noticeBytes r).length ↔ s.rxPool.reserve.freeDescs ≠ [] ∧ s.rxPool.reserve.freeCells ≠ [] := by
  rw [noticeBytes_length, reserveGrants, ← List.length_pos_iff (l := s.rxPool.reserve.freeCells)]
  rfl

/-! ### The NOTICE sent or dropped (R183) -/

theorem sendNotice_placed (descs : s.rxPool.reserve.freeDescs ≠ []) (cells : s.rxPool.reserve.freeCells ≠ []) :
    (s.sendNotice r).agent = { s.agent with noticeLatch := true } ∧
      (s.sendNotice r).counters = s.counters.plusMgmt .noticesSent ∧
      (∃ n, reserveFramePlaced s (s.sendNotice r) s.config.active.part.noticePort n s.config.active.part.noticeStream
        (noticeBytes r)) ∧
      onlyChanges [.agent, .counters, .rxPool, .egress] s (s.sendNotice r) := by
  obtain ⟨n, t, placed, frame, only⟩ := s.placeReserve_of_grants s.config.active.part.noticePort
    s.config.active.part.noticeStream (noticeBytes r) ((reserveGrants_notice_iff r).2 ⟨descs, cells⟩)
  have sent : s.sendNotice r = (t.mapAgent fun a => { a with noticeLatch := true }).countMgmt .noticesSent := by
    rw [sendNotice, placed]
  have agent : t.agent = s.agent := only .agent (by decide)
  have counters : t.counters = s.counters := only .counters (by decide)
  rw [sent]
  refine ⟨by simp [agent], by simp [counters], ⟨n, frame⟩, ?_⟩
  exact onlyChanges_chain (onlyChanges_chain (changed := [.agent, .rxPool, .egress]) only (mapAgent_onlyChanges _) (by decide))
    (countMgmt_onlyChanges _) (by decide)

theorem sendNotice_dropped (short : s.rxPool.reserve.freeDescs = [] ∨ s.rxPool.reserve.freeCells = []) :
    s.sendNotice r = s.countMgmt .noticesDropped := by
  have refused := s.placeReserve_of_not_grants s.config.active.part.noticePort s.config.active.part.noticeStream
    (noticeBytes r) fun grants =>
      have ⟨descs, cells⟩ := (reserveGrants_notice_iff r).1 grants
      short.elim descs cells
  rw [sendNotice, refused]

/-! ### The record accepted, with its check (R180, R183) -/

theorem acceptRecord_events (r : EventRecord) : (s.acceptRecord r).events = s.events.accept r := by simp [acceptRecord]

theorem acceptRecord_notDue (notDue : ¬s.noticeDue r.kind = true) :
    s.acceptRecord r = s.mapEvents fun q => q.accept r := if_neg notDue

/-- With notices off, a severity below the threshold or the latch set the Event Queue alone moves. -/
theorem acceptRecord_lacking
    (lacking : s.config.active.part.noticeEnabled = false ∨
      r.kind.severity.code < s.config.active.part.noticeThreshold.code ∨ s.agent.noticeLatch = true) :
    onlyChanges [.events] s (s.acceptRecord r) := by
  rw [acceptRecord_notDue fun due => ?_]
  · exact s.mapEvents_onlyChanges _
  · obtain ⟨enabled, threshold, clear⟩ := noticeDue_iff.1 due
    rcases lacking with off | below | set
    · simp [off] at enabled
    · exact Nat.not_lt.2 threshold below
    · simp [set] at clear

theorem acceptRecord_due (due : s.noticeDue r.kind = true) :
    s.acceptRecord r = (s.mapEvents fun q => q.accept r).sendNotice r := if_pos due

theorem acceptRecord_placed (due : s.noticeDue r.kind = true) (descs : s.rxPool.reserve.freeDescs ≠ [])
    (cells : s.rxPool.reserve.freeCells ≠ []) :
    (s.acceptRecord r).agent = { s.agent with noticeLatch := true } ∧
      (s.acceptRecord r).counters = s.counters.plusMgmt .noticesSent ∧
      (∃ n, reserveFramePlaced s (s.acceptRecord r) s.config.active.part.noticePort n s.config.active.part.noticeStream
        (noticeBytes r)) ∧
      onlyChanges [.events, .agent, .counters, .rxPool, .egress] s (s.acceptRecord r) := by
  rw [acceptRecord_due due]
  obtain ⟨agent, counters, frame, only⟩ := sendNotice_placed (s := s.mapEvents fun q => q.accept r) (r := r) descs cells
  exact ⟨agent, counters, frame, onlyChanges_chain (s.mapEvents_onlyChanges _) only (by decide)⟩

theorem acceptRecord_dropped (due : s.noticeDue r.kind = true)
    (short : s.rxPool.reserve.freeDescs = [] ∨ s.rxPool.reserve.freeCells = []) :
    (s.acceptRecord r).counters = s.counters.plusMgmt .noticesDropped ∧
      onlyChanges [.events, .counters] s (s.acceptRecord r) := by
  rw [acceptRecord_due due, sendNotice_dropped (s := s.mapEvents fun q => q.accept r) short]
  exact ⟨rfl, onlyChanges_chain (s.mapEvents_onlyChanges _) (countMgmt_onlyChanges _) (by decide)⟩

/-- COMMIT_DONE accepted at the end of a copy-back carries the generation (R148). -/
theorem copyBackDone_eq_acceptRecord (room : s.events.records.length < 31) :
    s.copyBackDone =
      (s.mapConfig (·.copyDone)).acceptRecord
        { sequence := s.events.nextSeq, time := s.now, kind := .commitDone, subject := .none, stream := none
          detail := s.config.generation } := if_pos room

/-- The first two rows of R180: with room the record itself is accepted, and with none a first loss record. -/
theorem offerEvent_eq_acceptRecord {k : EventKind} {b : Subject} {n : Option Half} {d : Half}
    (row : s.events.records.length < 31 ∧ r = s.makeRecord k b n d ∨
      31 ≤ s.events.records.length ∧ (∀ x ∈ s.events.records, x.kind ≠ .eventsLost) ∧
        r = s.makeRecord .eventsLost .none none 1#16) :
    s.offerEvent k b n d = s.acceptRecord r := by
  rcases row with ⟨room, rfl⟩ | ⟨full, noLoss, rfl⟩
  · exact if_pos room
  · have none : ¬s.events.holdsLoss = true := fun held =>
      have ⟨x, hx, loss⟩ := EventQueue.holdsLoss_iff.1 held
      noLoss x hx loss
    exact (if_neg (Nat.not_lt.2 full)).trans (if_neg none)

end State
end Sys2Proof.Machine

open Sys2Proof Sys2Proof.Machine in
/-- Settles O36: every record accepted goes through `State.acceptRecord`, and a refusal into a held loss record makes no
check. -/
theorem acceptedRecordSendsANotice : Obligations.AcceptedRecordSendsANotice := by
  refine ⟨fun s k b n d r part hpart row => ?_, fun s k b n d full held => ?_,
    fun s began part r rest running room hpart enabled threshold clear hr => ?_⟩
  · subst hpart
    rw [State.offerEvent_eq_acceptRecord row]
    refine ⟨State.acceptRecord_events r, State.acceptRecord_lacking, fun enabled threshold clear =>
      ⟨fun descs cells => ?_, fun short => ?_⟩⟩
    · obtain ⟨agent, counters, ⟨n, frame⟩, only⟩ :=
        State.acceptRecord_placed (State.noticeDue_iff.2 ⟨enabled, threshold, clear⟩) descs cells
      rw [noticeBytes_eq] at frame
      exact ⟨_, n, rfl, agent, counters, frame, only⟩
    · obtain ⟨counters, only⟩ :=
        State.acceptRecord_dropped (State.noticeDue_iff.2 ⟨enabled, threshold, clear⟩) short
      exact ⟨_, rfl, counters, only⟩
  · rw [s.offerEvent_countedLoss k b n d full held]
    exact s.mapEvents_onlyChanges _
  · subst hpart
    have done : exec .copyBackCompletion s = .next ((s.mapConfig (·.copyDone)).acceptRecord r) := by
      rw [Laws.exec_copyBackCompletion s rest, if_pos (by simp [running]), State.copyBackDone_eq_acceptRecord room, hr]
    have due : (s.mapConfig (·.copyDone)).noticeDue r.kind = true :=
      State.noticeDue_iff.2 ⟨enabled, by simp [ConfigStore.copyDone, threshold, hr, EventKind.severity], clear⟩
    refine ⟨_, done, fun descs cells => ?_, fun short => ?_⟩
    · obtain ⟨agent, counters, ⟨n, frame⟩, -⟩ := State.acceptRecord_placed due descs cells
      refine ⟨agent, by rw [mgmtCounted, counters]; simp, n, ?_⟩
      rw [hr] at frame ⊢
      rw [noticeBytes_commitDone] at frame
      exact frame
    · obtain ⟨counters, only⟩ := State.acceptRecord_dropped due short
      exact ⟨by rw [mgmtCounted, counters]; simp, onlyChanges_chain (s.mapConfig_onlyChanges _) only (by decide)⟩
end

section
/-! SUPPLY_BELOW_OPERATING_LEVEL and the cause that the next cold start reports (R187). -/

namespace Sys2Proof.Machine.State

/-- A cold start reports the cause that the supply gives it, and leaves the supply taken as steady (R187). -/
theorem coldStart_cause (s : State) : s.coldStart.time.lastCause = s.coldCause ∧ s.coldStart.pins.supplyLow = false := by
  simp [coldStart]

theorem coldCause_of_low {s : State} (low : s.pins.supplyLow = true) : s.coldCause = .powerUp := if_pos low

theorem coldCause_of_steady {s : State} (steady : s.pins.supplyLow = false) : s.coldCause = .resetPin :=
  if_neg (by simp [steady])

theorem mapPins_onlyChanges (s : State) (f : Pins → Pins) : onlyChanges [.pins] s (s.mapPins f) := by
  intro b hb
  cases b <;> first | exact absurd (by decide) hb | rfl

end Sys2Proof.Machine.State

open Sys2Proof.Machine in
/-- Settles O6: the mark that the supply leaves lasts until one cold start. -/
theorem supplyLossMakesThePowerUp : Obligations.SupplyLossMakesThePowerUp := by
  intro s
  obtain ⟨first, steady⟩ := s.supplyLost.coldStart_cause
  obtain ⟨second, -⟩ := s.supplyLost.coldStart.coldStart_cause
  exact ⟨s.supplyLost, rfl, rfl, s.mapPins_onlyChanges _, s.supplyLost.coldStart, rfl,
    first.trans (State.coldCause_of_low rfl), s.supplyLost.coldStart.coldStart, rfl,
    second.trans (State.coldCause_of_steady steady)⟩
end

section
/-! Timer commands whose event has not come about (R186, log 4). -/

namespace Sys2Proof.Machine

/-- A deadline that is absent or ahead has not passed (R186). -/
theorem deadlineReached_of_absentOrAhead {now : Time} {d : Option Time} (h : ∀ x, d = some x → 2 ^ 31 ≤ (now - x).toNat) :
    deadlineReached now d = false := by
  cases d with
  | none => rfl
  | some x => exact decide_eq_false (Nat.not_lt.2 (h x rfl))

namespace State

variable {s : State}

/-- An event inside the part that finds no execution due and does nothing changes nothing, held reset pin or not. -/
theorem exec_unchanged {c : Instr} (event : exec c s = whenRunning (eventRunning c) s) (ready : s.agent.headReady = none)
    (same : eventRunning c s = s) : exec c s = .next s := by
  rw [event, whenRunning, takeEvent, s.settled_none ready, same]
  simp

/-- A timer of the link that runs in one state, commanded in another state or before its deadline, is not due. -/
theorem linkTimer_notDue {state : LinkState} {d : Option Time}
    (h : s.link.state ≠ state ∨ ∀ x, d = some x → 2 ^ 31 ≤ (s.now - x).toNat) :
    ¬(decide (s.link.state = state) && deadlineReached s.now d) = true := by
  rcases h with other | ahead
  · simp [other]
  · simp [deadlineReached_of_absentOrAhead ahead]

theorem suspensionExpired_notDue {l : Level}
    (h : ∀ e ∈ s.sched.stack, e.frame.level = l → ∀ x, e.suspensionDeadline = some x → 2 ^ 31 ≤ (s.now - x).toNat) :
    s.suspensionExpired l = s := by
  unfold suspensionExpired txOpenAt
  split
  · rfl
  · rename_i e found
    have level : e.frame.level = l := by simpa using List.find?_some found
    simp [deadlineReached_of_absentOrAhead (h e (List.mem_of_find?_eq_some found) level)]

theorem ageDue_notDue {l : Level}
    (h : ∀ e ∈ s.reasm.stack, e.level = l → ∀ x, e.ageDeadline = some x → 2 ^ 31 ≤ (s.now - x).toNat) :
    ¬s.ageDue l = true := by
  unfold ageDue openAt
  split
  · simp
  · rename_i e found
    have level : e.level = l := by simpa using List.find?_some found
    simp [deadlineReached_of_absentOrAhead (h e (List.mem_of_find?_eq_some found) level)]

theorem peerExpired_notDue {tag : Byte}
    (h : ∀ e ∈ s.agent.peers, e.localTag = tag → ∀ x, some e.deadline = some x → 2 ^ 31 ≤ (s.now - x).toNat) :
    s.peerExpired tag = s := by
  unfold peerExpired
  split
  · rfl
  · rename_i e found
    have tagged : e.localTag = tag := by simpa using List.find?_some found
    have ahead : ¬s.peerDue e = true := by
      simpa [peerDue, timeReached] using h e (List.mem_of_find?_eq_some found) tagged
    exact if_neg ahead

end State
end Sys2Proof.Machine

open Sys2Proof.Machine in
/-- Settles O37, timer by timer: each finds its deadline not passed and leaves the state. -/
theorem timerNotDueChangesNothing : Obligations.TimerNotDueChangesNothing := by
  intro s ready absentOrAhead
  refine ⟨fun h => ?_, fun h => ?_, fun h => ?_, fun h => ?_, fun l h => ?_, fun l h => ?_, fun l h => ?_, fun tag h => ?_,
    fun idle => ?_⟩ <;> refine State.exec_unchanged rfl ready ?_
  · exact if_neg (State.linkTimer_notDue h)
  · exact if_neg (State.linkTimer_notDue h)
  · exact if_neg (State.linkTimer_notDue h)
  · exact if_neg (State.linkTimer_notDue h)
  · exact if_neg (State.linkTimer_notDue h)
  · exact State.suspensionExpired_notDue h
  · exact if_neg (State.ageDue_notDue h)
  · exact State.peerExpired_notDue h
  · exact if_neg (by simp [idle])
end

section
/-! The CRC over bytes and their own CRC (R189). -/

namespace Sys2Proof.Machine

/-- Bit times in which no 1 reaches the top of the CRC register only move it up: the generator is never subtracted. -/
theorem crcBits_eq_shiftLeft {n : Nat} {c : Half} (h : c.toNat * 2 ^ n < 2 ^ 16) : crcBits n c = c <<< n := by
  induction n generalizing c with
  | zero => simp [crcBits]
  | succ n ih =>
    have small : c.toNat * 2 * 2 ^ n < 2 ^ 16 := by rwa [Nat.mul_assoc, ← Nat.pow_succ']
    have half : c.toNat * 2 < 2 ^ 16 := Nat.lt_of_le_of_lt (Nat.le_mul_of_pos_right _ (Nat.two_pow_pos n)) small
    have top : c.msb = false := by simp [BitVec.msb_eq_decide]; omega
    have moved : (c <<< 1).toNat = c.toNat * 2 := by
      rw [BitVec.toNat_shiftLeft, Nat.shiftLeft_eq, Nat.pow_one, Nat.mod_eq_of_lt half]
    rw [crcBits, if_neg (by simp [top]), ih (by rwa [moved]), ← BitVec.shiftLeft_add, Nat.add_comm]

/-- The register's own upper byte, fed to it, clears that byte and brings the lower one up. -/
theorem crcByte_upper (c : Half) : crcByte c (c.extractLsb' 8 8) = (c.extractLsb' 0 8).setWidth 16 <<< 8 := by
  have lower : c ^^^ ((c.extractLsb' 8 8).setWidth 16 <<< 8) = (c.extractLsb' 0 8).setWidth 16 := by
    ext i hi
    by_cases low : i < 8
    · simp [low, BitVec.getLsbD_eq_getElem hi]
    · simp [low, show 8 + (i - 8) = i by omega, show i - 8 < 8 by omega, BitVec.getLsbD_eq_getElem hi]
  have byte := (c.extractLsb' 0 8).isLt
  rw [crcByte, lower, crcBits_eq_shiftLeft (by rw [BitVec.toNat_setWidth]; omega)]

/-- A register that holds one byte, in its upper half, is emptied by that byte. -/
theorem crcByte_same (b : Byte) : crcByte (b.setWidth 16 <<< 8) b = 0#16 := by
  rw [crcByte, BitVec.xor_self, crcBits_eq_shiftLeft (by simp), BitVec.zero_shiftLeft]

/-- The two bytes of the register's own value, most significant first, take it to 0. -/
theorem foldl_crcByte_halfBytes (c : Half) : (halfBytes c).foldl crcByte c = 0#16 := by
  rw [halfBytes, List.foldl_cons, crcByte_upper, List.foldl_cons, crcByte_same, List.foldl_nil]

theorem crc16_append (a b : List Byte) : crc16 (a ++ b) = b.foldl crcByte (crc16 a) := List.foldl_append

end Sys2Proof.Machine

open Sys2Proof.Machine in
/-- Settles O60: the register stands at the CRC when the CRC's own bytes come, whatever the bytes before them. -/
theorem crcOverItsOwnBytesIsZero : Obligations.CrcOverItsOwnBytesIsZero :=
  ⟨fun bytes => (crc16_append bytes _).trans (foldl_crcByte_halfBytes _), by decide +kernel⟩
end

section
/-! The step as a whole: the command it takes, and that every step answers a next state. -/

namespace Sys2Proof.Machine

/-- With a command waiting, the step is that command on the state with the queue's rest (log 1). -/
theorem State.step_pending {s : State} {c : Instr} {rest : List Instr} (front : s.pending = c :: rest) :
    step s = exec c { s with pending := rest } := by rw [step, front]

/-- An execution answers a next state, whether or not a request of its kind is at the head (R158). -/
theorem takeExecution_next (named : Request → Bool) (s : State) : ∃ t, takeExecution named s = .next t := ⟨_, rfl⟩

/-- An event answers a next state, in a running part and while the reset pin is held. -/
theorem takeEvent_next (held running : State → State) (s : State) : ∃ t, takeEvent held running s = .next t := ⟨_, rfl⟩

/-- No command faults and none is refused, whichever of the kinds of command it is. -/
theorem exec_next (c : Instr) (s : State) : ∃ t, exec c s = .next t := by
  obtain ⟨trunk, station, reset⟩ | cold | supply | execution | event := exec_cases c s
  · exact ⟨_, reset⟩
  · exact ⟨_, cold⟩
  · exact ⟨_, supply⟩
  · exact execution ▸ takeExecution_next _ s
  · exact event ▸ takeEvent_next _ _ s

end Sys2Proof.Machine

open Sys2Proof.Machine

/-- Settles O1: the queue's front and rest are what the step reads of the state. -/
theorem stepTakesTheFrontCommand : Obligations.StepTakesTheFrontCommand :=
  fun _ _ _ => State.step_pending rfl

/-- Settles O2, by whether a command waits: the idle step answers a next state, and so does every command. -/
theorem everyStepAnswersANextState : Obligations.EveryStepAnswersANextState := by
  intro s
  cases queue : s.pending with
  | nil => exact ⟨s.idle, State.step_empty queue⟩
  | cons c rest => exact State.step_pending queue ▸ exec_next c { s with pending := rest }
end
